-- ==== Sys2Proof/Word.lean ====
section
/-! DEFINITION. The widths of 00_scope.md R7 and the plainest arithmetic over them (R10). -/

namespace Sys2Proof

/-- One byte of memory, and one symbol (R7 SYMBOL_W = 8). -/
abbrev Byte := BitVec 8

/-- A register-bus word, a byte address, a length (R7 ADDR_W, LEN_W). -/
abbrev Word := BitVec 32

/-- ORIG_LEN, TOTAL_BITS and node weights (R7 ORIG_LEN_W, TOTAL_BITS_W, WEIGHT_W). -/
abbrev DWord := BitVec 64

/-- A node index of the arena (R7 MAX_NODES, NODE_NONE). -/
abbrev NodeIdx := BitVec 9

/-- A row of CODE_BITS (10_state.md R42). -/
abbrev CodeWord := BitVec 256

/-- NODE_NONE (R7). -/
def nodeNone : NodeIdx := 0x1FF

/-- The number of bytes of the data address space (20_memory.md R60). -/
def addrSpace : Nat := 0x100000000

/-- The number of bytes that hold t bits (R10). -/
def ceil8 (t : Nat) : Nat := (t + 7) / 8

end Sys2Proof
end

