-- ==== Sys2Proof/Syntax.lean ====
section
/-! DEFINITION. The commands of 30_encoding.md R81, one constructor per row of opcode_table.json. No
command has an operand field (R80, R83). -/

namespace Sys2Proof

/-- The nine commands (30_encoding.md R81). -/
inductive Instr where
  | clear
  | count
  | buildTree
  | assignCodes
  | emitStream
  | parseHeader
  | decodePayload
  | encode
  | decode
  deriving DecidableEq, Repr

/-- OPCODE of a command (R81). -/
def Instr.opcode : Instr → Byte
  | .clear => 0x01
  | .count => 0x02
  | .buildTree => 0x03
  | .assignCodes => 0x04
  | .emitStream => 0x05
  | .parseHeader => 0x06
  | .decodePayload => 0x07
  | .encode => 0x08
  | .decode => 0x09

end Sys2Proof
end

