-- ==== Sys2Proof/WellFormed.lean ====
section
/-! DEFINITION. What is well formed before the machine sees it: a command's opcode, a command word
(30_encoding.md R80 to R82), and the offset of a register access (10_state.md R20). -/

namespace Sys2Proof

/-- OPCODE is one of the nine (R81). -/
def opcodeWf (op : Byte) : Bool := decide (1 ≤ op.toNat ∧ op.toNat ≤ 9)

/-- RSVD, bits 31:8, is 0 (R80). -/
def rsvdWf (w : Word) : Bool := decide (w.toNat / 256 = 0)

/-- A legal command word (R82). -/
def commandWordWf (w : Word) : Bool := rsvdWf w && opcodeWf (w.setWidth 8)

/-- A command is well formed: its opcode is one of the map's. It has no operand that could be wrong. -/
def Instr.wellFormed (i : Instr) : Bool := opcodeWf i.opcode

/-- A register access names a word: offset bits [1:0] are 0 (R20). -/
def busOffsetWf (off : Byte) : Bool := decide (off.toNat % 4 = 0)

end Sys2Proof
end

