-- ==== Sys2Proof/Decode.lean ====
section
/-! DEFINITION. The decoder and the encoder of command words (30_encoding.md R80 to R82). The decoder is
total on every 32-bit word and rejects by name. -/

namespace Sys2Proof

/-- Why a command word is illegal (R82). -/
inductive DecodeError where
  | rsvdNonzero
  | reservedOpcode
  deriving DecidableEq, Repr

/-- RSVD, bits 31:8 (R80). -/
def rsvdField (w : Word) : Nat := w.toNat / 256

/-- OPCODE, bits 7:0 (R80). -/
def opcodeField (w : Word) : Byte := w.setWidth 8

/-- The opcode map of R81. -/
def decodeOpcode (op : Byte) : Option Instr :=
  match op.toNat with
  | 0x01 => some .clear
  | 0x02 => some .count
  | 0x03 => some .buildTree
  | 0x04 => some .assignCodes
  | 0x05 => some .emitStream
  | 0x06 => some .parseHeader
  | 0x07 => some .decodePayload
  | 0x08 => some .encode
  | 0x09 => some .decode
  | _ => none

/-- A decoder matches the whole 32-bit word (R81); every other word is illegal (R82). -/
def decodeWord (w : Word) : Except DecodeError Instr :=
  if rsvdField w ≠ 0 then .error .rsvdNonzero
  else
    match decodeOpcode (opcodeField w) with
    | some i => .ok i
    | none => .error .reservedOpcode

/-- The instruction of a table row's word, numbered as the table numbers it (bit 0 least significant; one
32-bit word, no byte lanes: 20_memory.md R62). A command is exactly 32 bits (R80), so a number with a bit
above 31 is no command word. -/
def decodeTableWord (nbits w : Nat) : Option Instr :=
  let v := w % 2 ^ nbits
  if v < 2 ^ 32 then
    match decodeWord (BitVec.ofNat 32 v) with
    | .ok i => some i
    | .error _ => none
  else none

/-- The command word of a command: RSVD = 0, OPCODE in bits 7:0 (R80, R81). -/
def encode (i : Instr) : Word :=
  match i with
  | .clear => 0x00000001
  | .count => 0x00000002
  | .buildTree => 0x00000003
  | .assignCodes => 0x00000004
  | .emitStream => 0x00000005
  | .parseHeader => 0x00000006
  | .decodePayload => 0x00000007
  | .encode => 0x00000008
  | .decode => 0x00000009

end Sys2Proof
end

