-- ==== Sys2Proof/Config.lean ====
section
/-! DEFINITION. What the implementation fixes and the values the spec leaves open (00_scope.md R7,
93_implementation_defined.md). Both constants are opaque: no proof can see a value of either. -/

namespace Sys2Proof

/-- ID_VALUE (R7, 10_state.md R21). -/
def Config.idValue : Word := 0x48554631

/-- What a free value is drawn for, so that no two values of one step are the same draw. -/
inductive Slot where
  | freq | codeLen | codeBits | nsym | origLen | payAddr | payLen | payFbb | totalBits | finalBits
  | root | arenaLen | nodeKind | nodeSym | nodeWeight | nodeContent | nodeLeft | nodeRight
  | resultLen | flag | err | errCode | memByte | payloadByte | busRead | memRead
  deriving DecidableEq, Repr

/-- A free value of width w: the spec's "any value". It is applied to the state's `draws` counter (the
seed), to what it is drawn for, and to an index. Log entry 6. -/
opaque Config.draw (w seed : Nat) (slot : Slot) (i : Nat) : BitVec w

/-- LATENCY (R7, 70_reset_and_hazards.md R268): how many turns of the host pass between the acceptance
of a command and its completion step; finite and otherwise free. Log entry 1. -/
opaque Config.latency : Nat → Nat

end Sys2Proof
end

