-- ==== Sys2Proof/Machine/State.lean ====
section
/-! DEFINITION. The state of the machine (10_state.md), its reset value (70_reset_and_hazards.md R260), and
the reasons a step can stop. -/

namespace Sys2Proof.Machine

/-- The reasons the machine stops with a fault: none. The address space is total and no access faults
(20_memory.md R60, R61); errors are reported in STATUS and the machine goes on (60_exceptions.md R237). -/
inductive Fault where
  deriving DecidableEq, Repr

/-- The reasons a step has no meaning. -/
inductive Refusal where
  /-- Raised only by an arm of `exec` whose command has no meaning yet; none is left, so nothing raises it.
  Safe. -/
  | notModelled (mnemonic : String)
  deriving DecidableEq, Repr

/-- STATUS.ERR_CODE's values (60_exceptions.md R230). -/
inductive ErrCode where
  | none
  | illegalCommand
  | sequence
  | addressRange
  | overlap
  | emptyTable
  | inputMismatch
  | outputOverflow
  | corruptTruncated
  | corruptSymbolCount
  | corruptZeroFrequency
  | corruptDuplicateSymbol
  | corruptSumMismatch
  | corruptFinalBits
  | corruptPadding
  | corruptEndOfStream
  | corruptMissingChild
  | corruptTrailingBits
  | corruptHistogram
  deriving DecidableEq, Repr

/-- A node of the arena (10_state.md R43). A fork's content is the ascending list, without repeats, of the
symbols below it. -/
inductive Node where
  | leaf (sym : Byte) (weight : DWord)
  | fork (weight : DWord) (content : List Byte) (left right : NodeIdx)
  deriving DecidableEq, Repr

/-- Memory: (address, byte) pairs, addresses strictly rising, no byte 0 listed; an unlisted address reads 0
(20_memory.md R60; log entry 5). -/
abbrev Memory := List Host.Cell

/-- The command in flight, between acceptance and completion (40_host_interface.md R113, R115). -/
structure InFlight where
  /-- the latched command word (R113) -/
  word : Word
  /-- the model's own: turns of the host still to come before the completion step (log entry 1) -/
  wait : Nat
  /-- the model's own: a byte of the command's windows was written meanwhile (R265, log entry 9) -/
  raced : Bool
  deriving DecidableEq, Repr

/-- The registers of the register map (10_state.md R20). -/
inductive Reg where
  | id | cmd | status | intEn | intStatus | srcAddr | srcLen | dstAddr | dstCap | resultLen | nsym
  | origLenLo | origLenHi | totalBitsLo | totalBitsHi | finalBits | root | nodeCount
  | payAddr | payLen | payFbb | tblIndex | freqData | codeLenData
  | codeBitsData (j : Fin 8)
  | nodeInfo | nodeLink | nodeWLo | nodeWHi
  deriving DecidableEq, Repr

/-- What comes from outside the core: a bus transaction of the host (30_encoding.md R98), a memory access of
the host or another agent (00_scope.md R5, 70_reset_and_hazards.md R265), an edge of the reset input (R262). -/
inductive HostEvent where
  | write (off : Byte) (v : Word)
  | read (off : Byte)
  | memWrite (a : Word) (b : Byte)
  | memRead (a : Word)
  | rstAssert
  | rstRelease
  deriving DecidableEq, Repr

/-- What a read of the host returned. -/
inductive Seen where
  | reg (off : Byte) (v : Word)
  | mem (a : Word) (b : Byte)
  deriving DecidableEq, Repr

/-- The machine. Each field names its register as 10_state.md does; `inflight`, `inputs`, `seen` and `draws`
are explained in log entries 1, 2 and 6. -/
structure State where
  /-- the latched command; STATUS.BUSY is `inflight.isSome` (R23) -/
  inflight : Option InFlight
  done : Bool
  err : Bool
  wbusy : Bool
  errCode : ErrCode
  tableValid : Bool
  treeValid : Bool
  codesValid : Bool
  hdrValid : Bool
  lastOp : Byte
  doneIe : Bool
  doneIp : Bool
  srcAddr : Word
  srcLen : Word
  dstAddr : Word
  dstCap : Word
  resultLen : Word
  nsym : BitVec 9
  origLen : DWord
  totalBits : DWord
  finalBits : BitVec 4
  root : NodeIdx
  payAddr : Word
  payLen : Word
  payFbb : BitVec 4
  tblIndex : BitVec 9
  freq : Vector Word 256
  codeLen : Vector Byte 256
  codeBits : Vector CodeWord 256
  /-- the nodes of the arena; NODE_COUNT is its length (R35, R43) -/
  arena : List Node
  mem : Memory
  rst : Bool
  inputs : List HostEvent
  seen : List Seen
  draws : Nat
  deriving DecidableEq, Repr

/-- The state after a hardware reset (70_reset_and_hazards.md R260), with the memory and the tables it finds:
MEM0 is a parameter of the platform and R260 leaves the tables any value. -/
def State.resetWith (mem0 : Memory) (freq : Vector Word 256) (codeLen : Vector Byte 256)
    (codeBits : Vector CodeWord 256) : State where
  inflight := none
  done := false
  err := false
  wbusy := false
  errCode := .none
  tableValid := false
  treeValid := false
  codesValid := false
  hdrValid := false
  lastOp := 0
  doneIe := false
  doneIp := false
  srcAddr := 0
  srcLen := 0
  dstAddr := 0
  dstCap := 0
  resultLen := 0
  nsym := 0
  origLen := 0
  totalBits := 0
  finalBits := 0
  root := nodeNone
  payAddr := 0
  payLen := 0
  payFbb := 0
  tblIndex := 0
  freq := freq
  codeLen := codeLen
  codeBits := codeBits
  arena := []
  mem := mem0
  rst := false
  inputs := []
  seen := []
  draws := 0

/-- The machine right after reset: R260, with memory that lists nothing (log entry 5) and, where R260 leaves
the tables any value, tables of zeros (DESIGN CHOICE, unsafe: log entry 4). -/
def State.reset : State :=
  State.resetWith [] (Vector.replicate 256 0) (Vector.replicate 256 0) (Vector.replicate 256 0)

end Sys2Proof.Machine
end

