-- ==== Sys2Proof/Machine/Ops.lean ====
section
/-! DEFINITION. The shared operations over memory, tables and STATUS: byte access (20_memory.md R60), table
access, the acceptance of a command (40_host_interface.md R113), and its end, with an error or without
(R115, 60_exceptions.md R232). -/

namespace Sys2Proof.Machine

/-! ## Memory (R60, R61) -/

/-- The byte at an address; an unlisted address reads 0 (log entry 5). -/
def Memory.read : Memory → Nat → Byte
  | [], _ => 0
  | (k, v) :: m, a => if k = a then v else Memory.read m a

/-- Put byte b at address a into a list in canonical form, keeping the form. -/
def Memory.put : Memory → Nat → Byte → Memory
  | [], a, b => if b = 0 then [] else [(a, b)]
  | (k, v) :: m, a, b =>
    if k < a then (k, v) :: Memory.put m a b
    else if k = a then (if b = 0 then m else (a, b) :: m)
    else (if b = 0 then (k, v) :: m else (a, b) :: (k, v) :: m)

/-- MemWrite (R60): set the byte at a. An address past the space holds no byte (log entry 10). -/
def Memory.write (m : Memory) (a : Nat) (b : Byte) : Memory :=
  if a < addrSpace then m.put a b else m

/-- Write bytes at a, a+1, … -/
def Memory.writeBytes : Memory → Nat → List Byte → Memory
  | m, _, [] => m
  | m, a, b :: bs => Memory.writeBytes (m.write a b) (a + 1) bs

/-- n bytes from address a on. -/
def Memory.bytes (m : Memory) (a n : Nat) : List Byte :=
  (List.range n).map fun i => m.read (a + i)

/-- Every byte of [a, a + n) holds any value: a draw each (log entry 6). -/
def Memory.scramble (m : Memory) (a n seed : Nat) : Memory :=
  m.writeBytes a ((List.range n).map fun i => Config.draw 8 seed .memByte i)

/-- The cells are in canonical form from address lo on: addresses rise strictly and stay inside the space, no
byte is 0. -/
def Memory.wfFrom : Nat → Memory → Bool
  | _, [] => true
  | lo, (k, v) :: m => decide (lo ≤ k) && decide (k < addrSpace) && decide (v ≠ 0) && Memory.wfFrom (k + 1) m

/-- The canonical form of memory. -/
def Memory.wf (m : Memory) : Bool := Memory.wfFrom 0 m

/-! ## Tables indexed by a symbol (R40 to R42) -/

/-- The symbols in ascending order: "for s in 0..255" (00_scope.md R9). -/
def allSyms : List Byte := (List.range 256).map fun n => BitVec.ofNat 8 n

/-- Entry s of a table. -/
def tget {α : Type} (t : Vector α 256) (s : Byte) : α := t.get s.toFin

/-- The table with entry s replaced. -/
def tset {α : Type} (t : Vector α 256) (s : Byte) (v : α) : Vector α 256 := t.set s.toNat v s.isLt

/-- The table whose entry s is f s. -/
def tabulate {α : Type} (f : Byte → α) : Vector α 256 :=
  { toArray := { toList := allSyms.map f }, size_toArray := by simp [allSyms] }

/-- A table of any values (R260, R207): one draw an entry. -/
def drawTable (w seed : Nat) (slot : Slot) : Vector (BitVec w) 256 :=
  tabulate fun s => Config.draw w seed slot s.toNat

/-! ## The command in flight -/

/-- STATUS.BUSY (R23). -/
def State.busy (s : State) : Bool := s.inflight.isSome

/-- A byte of the running command's windows was written while BUSY = 1 (R265). -/
def State.raced (s : State) : Bool :=
  match s.inflight with
  | some f => f.raced
  | none => false

/-- Acceptance of command word v (R113). `wait` is the latency this command will take (log entry 1). -/
def State.accept (s : State) (v : Word) (wait : Nat) : State :=
  { s with
    inflight := some { word := v, wait := wait, raced := false }
    done := false
    err := false
    errCode := .none
    wbusy := false
    lastOp := v.setWidth 8 }

/-- A successful completion step's writes to STATUS and INT_STATUS (R115). -/
def State.completeOk (s : State) : State :=
  { s with
    inflight := none
    done := true
    err := false
    errCode := .none
    doneIp := true
    draws := s.draws + 1 }

/-- Taking an error: the completion step of a command that raised e (R115, R232, R237). It saves the error in
ERR_CODE; the opcode is already in LAST_OP. -/
def State.takeError (s : State) (e : ErrCode) : State :=
  { s with
    inflight := none
    done := true
    err := true
    errCode := e
    doneIp := true
    draws := s.draws + 1 }

/-- The host's acknowledge (R238, R241): a write to INT_STATUS clears DONE_IP where its bit 0 is 1. -/
def State.acknowledge (s : State) (v : Word) : State :=
  if v.getLsbD 0 then { s with doneIp := false } else s

/-- The completion step of an illegal command word (30_encoding.md R82). -/
def State.completeIllegal (s : State) : State := s.takeError .illegalCommand

/-! ## A command's pseudocode (00_scope.md R9) -/

/-- How a command's pseudocode ends, and the state it leaves before the completion step's own writes. -/
inductive Run where
  | ok (s : State)
  | raise (e : ErrCode) (s : State)
  deriving DecidableEq, Repr

/-- One step of a composite command after another: the first raise ends it (44_encoder.md R190). -/
def Run.andThen (r : Run) (k : State → Run) : Run :=
  match r with
  | .ok s => k s
  | .raise e s => .raise e s

/-- RESULT_LEN is 0 after an error of the four emitting commands (60_exceptions.md R233). -/
def Run.zeroLength (r : Run) : Run :=
  match r with
  | .ok s => .ok s
  | .raise e s => .raise e { s with resultLen := 0 }

/-- The completion step's own writes (R115). -/
def Run.complete (r : Run) : State :=
  match r with
  | .ok s => s.completeOk
  | .raise e s => s.takeError e

/-! ## Error codes (60_exceptions.md R230) -/

/-- The value of ERR_CODE. -/
def ErrCode.code : ErrCode → Byte
  | .none => 0x00
  | .illegalCommand => 0x01
  | .sequence => 0x02
  | .addressRange => 0x03
  | .overlap => 0x04
  | .emptyTable => 0x05
  | .inputMismatch => 0x06
  | .outputOverflow => 0x07
  | .corruptTruncated => 0x10
  | .corruptSymbolCount => 0x11
  | .corruptZeroFrequency => 0x12
  | .corruptDuplicateSymbol => 0x13
  | .corruptSumMismatch => 0x14
  | .corruptFinalBits => 0x15
  | .corruptPadding => 0x16
  | .corruptEndOfStream => 0x17
  | .corruptMissingChild => 0x18
  | .corruptTrailingBits => 0x19
  | .corruptHistogram => 0x1A

/-- The document's CorruptStream class: ERR_CODE[4] = 1 (R230). -/
def ErrCode.isCorrupt (e : ErrCode) : Bool := e.code.getLsbD 4

end Sys2Proof.Machine
end

