-- ==== Sys2Proof/Machine/Operands.lean ====
section
/-! DEFINITION. What commands take their operands from: windows of memory (20_memory.md R64 to R66), the
histogram of a buffer, big-endian integers (R62), payload bits (R63), codes (00_scope.md R11) and the sets
of symbols that nodes cover (10_state.md R43). -/

namespace Sys2Proof.Machine

/-! ## Windows -/

/-- W(a, n) (R64). -/
structure Window where
  base : Word
  len : Word
  deriving DecidableEq, Repr

/-- a + n ≤ 2^32, the sum without wrap (R64). -/
def Window.inRange (w : Window) : Bool := decide (w.base.toNat + w.len.toNat ≤ addrSpace)

/-- The address lies in [base, base + len). -/
def Window.contains (w : Window) (a : Nat) : Bool :=
  decide (w.base.toNat ≤ a ∧ a < w.base.toNat + w.len.toNat)

/-- Both are non-empty and they share a byte (R66). -/
def Window.overlaps (v w : Window) : Bool :=
  decide (0 < v.len.toNat ∧ 0 < w.len.toNat ∧
    v.base.toNat < w.base.toNat + w.len.toNat ∧ w.base.toNat < v.base.toNat + v.len.toNat)

/-- W(SRC_ADDR, SRC_LEN). -/
def State.srcWindow (s : State) : Window := { base := s.srcAddr, len := s.srcLen }

/-- W(DST_ADDR, DST_CAP). -/
def State.dstWindow (s : State) : Window := { base := s.dstAddr, len := s.dstCap }

/-- W(PAY_ADDR, PAY_LEN). -/
def State.payWindow (s : State) : Window := { base := s.payAddr, len := s.payLen }

/-- The bytes of the source window, in order. -/
def State.srcBytes (s : State) : List Byte := s.mem.bytes s.srcAddr.toNat s.srcLen.toNat

/-- Every byte of the destination window holds any value (R188, R218, R261). -/
def State.scrambleDst (s : State) : Memory :=
  s.mem.scramble s.dstAddr.toNat s.dstCap.toNat s.draws

/-! ## Frequency tables -/

/-- f[b] for every byte value b (R132). A count is at most 2^32 - 1 (R133). -/
def histogram (bs : List Byte) : Vector Word 256 := tabulate fun b => BitVec.ofNat 32 (bs.count b)

/-- The present symbols, ascending (R40). -/
def present (freq : Vector Word 256) : List Byte :=
  ((allSyms.zip freq.toList).filter fun p => p.2 ≠ 0).map fun p => p.1

/-- Σ over all symbols of FREQ[s] · CODE_LEN[s] (R33, R171). -/
def codedBits (freq : Vector Word 256) (codeLen : Vector Byte 256) : Nat :=
  (List.zipWith (fun (f : Word) (l : Byte) => f.toNat * l.toNat) freq.toList codeLen.toList).sum

/-- Σ over all symbols of FREQ[s]. -/
def totalCount (freq : Vector Word 256) : Nat := (freq.toList.map fun f => f.toNat).sum

/-- Two tables agree in every entry ("h = FREQ"). -/
def tableEq (f g : Vector Word 256) : Bool := decide (f.toList = g.toList)

/-! ## Byte order (R62) -/

/-- BE_N(a) <- v: the N bytes of v, the most significant first. -/
def beBytes (n v : Nat) : List Byte :=
  (List.range n).map fun i => BitVec.ofNat 8 (v / 256 ^ (n - 1 - i))

/-- BE_N(a). -/
def Memory.beRead (m : Memory) (a n : Nat) : Nat :=
  (m.bytes a n).foldl (fun acc b => acc * 256 + b.toNat) 0

/-! ## Bit order (R63) -/

/-- Bit k of the payload: bit 7 - (k mod 8) of its byte k div 8. Memory is read only inside the payload window
(R65): a bit past it, which PAY_FBB asks for only where a race left it above 8, is any value (log entry 15). -/
def State.payloadBit (s : State) (k : Nat) : Bool :=
  let b := if k / 8 < s.payLen.toNat then s.mem.read (s.payAddr.toNat + k / 8)
    else Config.draw 8 s.draws .payloadByte (k / 8)
  b.getLsbD (7 - k % 8)

/-- S, the number of significant bits (30_encoding.md R94, 45_decoder.md R214). -/
def State.significantBits (s : State) : Nat :=
  if s.payLen = 0 then 0 else 8 * (s.payLen.toNat - 1) + s.payFbb.toNat

/-- The significant bits of the payload, in order. -/
def State.payloadBits (s : State) : List Bool :=
  (List.range s.significantBits).map s.payloadBit

/-! ## Codes (00_scope.md R11, 10_state.md R42) -/

/-- A right-aligned code of length l, first bit first. -/
def codeBitList (l : Byte) (c : CodeWord) : List Bool :=
  (List.range l.toNat).map fun j => c.getLsbD (l.toNat - 1 - j)

/-! ## Sets of symbols (10_state.md R43, 90_conflicts.md C7) -/

/-- Add a symbol to an ascending list without repeats. -/
def insertSym (b : Byte) : List Byte → List Byte
  | [] => [b]
  | c :: cs => if b < c then b :: c :: cs else if b = c then c :: cs else c :: insertSym b cs

/-- The union of two contents. -/
def unionSyms (as bs : List Byte) : List Byte := as.foldr insertSym bs

/-- A node's weight. -/
def Node.weight : Node → DWord
  | .leaf _ w => w
  | .fork w _ _ _ => w

/-- A node's content (R154). -/
def Node.content : Node → List Byte
  | .leaf b _ => [b]
  | .fork _ c _ _ => c

/-- The smallest symbol in a node's content (R43). A content is never empty (log entry 18). -/
def Node.minSym (n : Node) : Byte := n.content.headD 0

/-- Node i of some arena that holds no node i: any value (93 U2; log entry 7). -/
def freeNode (seed i : Nat) : Node :=
  if Config.draw 1 seed .nodeKind i = 0 then
    .leaf (Config.draw 8 seed .nodeSym i) (Config.draw 64 seed .nodeWeight i)
  else
    .fork (Config.draw 64 seed .nodeWeight i)
      (insertSym (Config.draw 8 seed .nodeSym i)
        (allSyms.filter fun b => (Config.draw 256 seed .nodeContent i).getLsbD b.toNat))
      (Config.draw 9 seed .nodeLeft i) (Config.draw 9 seed .nodeRight i)

/-- NODE[i]. -/
def nodeAt (arena : List Node) (seed : Nat) (i : NodeIdx) : Node :=
  match arena[i.toNat]? with
  | some n => n
  | none => freeNode seed i.toNat

end Sys2Proof.Machine
end

