-- ==== Sys2Proof/Machine/Flags.lean ====
section
/-! DEFINITION. Every field of STATUS and of the summary registers that is computed: the validity flags each
command writes (10_state.md R45), FINAL_BITS (R34), the STATUS word (R23), the interrupt (60_exceptions.md
R240). -/

namespace Sys2Proof.Machine

/-- TABLE_VALID set, the others cleared (41_symbol_table.md R132). -/
def State.flagsTable (s : State) : State :=
  { s with tableValid := true, treeValid := false, codesValid := false, hdrValid := false }

/-- TABLE_VALID and HDR_VALID set, TREE_VALID and CODES_VALID cleared (45_decoder.md R200). -/
def State.flagsHeader (s : State) : State :=
  { s with tableValid := true, hdrValid := true, treeValid := false, codesValid := false }

/-- TREE_VALID set, CODES_VALID cleared (42_tree_builder.md R153). -/
def State.flagsTree (s : State) : State := { s with treeValid := true, codesValid := false }

/-- CODES_VALID set (43_code_assigner.md R171). -/
def State.flagsCodes (s : State) : State := { s with codesValid := true }

/-- All four cleared (41_symbol_table.md R130, 45_decoder.md R207). -/
def State.flagsNone (s : State) : State :=
  { s with tableValid := false, treeValid := false, codesValid := false, hdrValid := false }

/-- FINAL_BITS of a payload of t bits (10_state.md R34). -/
def finalBitsOf (t : DWord) : BitVec 4 :=
  if t = 0 then 0 else if t.toNat % 8 = 0 then 8 else BitVec.ofNat 4 (t.toNat % 8)

/-- finalByteBits is legal for a payload of p bytes (30_encoding.md R94). -/
def finalByteBitsLegal (p fbb : Nat) : Bool :=
  if p = 0 then decide (fbb = 0) else decide (1 ≤ fbb ∧ fbb ≤ 8)

/-- One bit of a register word. -/
def bitAt (b : Bool) (k : Nat) : Word := if b then BitVec.ofNat 32 (2 ^ k) else 0

/-- The STATUS word (10_state.md R23). -/
def State.statusWord (s : State) : Word :=
  bitAt s.busy 0 ||| bitAt s.done 1 ||| bitAt s.err 2 ||| bitAt s.wbusy 3
    ||| (s.errCode.code.setWidth 32 <<< 8)
    ||| bitAt s.tableValid 16 ||| bitAt s.treeValid 17 ||| bitAt s.codesValid 18 ||| bitAt s.hdrValid 19
    ||| (s.lastOp.setWidth 32 <<< 24)

/-- The interrupt output (60_exceptions.md R240). -/
def State.irq (s : State) : Bool := s.doneIe && s.doneIp

end Sys2Proof.Machine
end

