-- ==== Sys2Proof/Machine/Race.lean ====
section
/-! DEFINITION. The memory race of 70_reset_and_hazards.md R265: what each command's rule lets it write, and
the completion step of a command whose windows were written while it ran. -/

namespace Sys2Proof.Machine

/-- What a command's rule lets it write, and the error codes 60_exceptions.md R230 lists for it. -/
structure Footprint where
  /-- FREQ, NSYM, ORIG_LEN -/
  table : Bool := false
  /-- PAY_ADDR, PAY_LEN, PAY_FBB -/
  pay : Bool := false
  /-- the arena, ROOT, NODE_COUNT -/
  tree : Bool := false
  /-- CODE_LEN, CODE_BITS -/
  codes : Bool := false
  /-- TOTAL_BITS, FINAL_BITS -/
  summary : Bool := false
  /-- RESULT_LEN and the destination window -/
  output : Bool := false
  tableFlag : Bool := false
  treeFlag : Bool := false
  codesFlag : Bool := false
  hdrFlag : Bool := false
  errs : List ErrCode := []
  deriving DecidableEq, Repr

/-- An arena of any nodes, 0 to 511 of them (10_state.md R35, R43). -/
def freeArena (seed : Nat) : List Node :=
  (List.range ((Config.draw 9 seed .arenaLen 0).toNat)).map (freeNode seed)

/-- A free bit. -/
def freeBool (seed : Nat) (slot : Slot) (i : Nat) : Bool := Config.draw 1 seed slot i = 1

/-- One of the listed codes, or NONE. -/
def freeErr (errs : List ErrCode) (seed : Nat) : ErrCode :=
  errs.getD (Config.draw 8 seed .errCode 0).toNat .none

/-- Everything in the footprint holds any value (R265). -/
def scramble (fp : Footprint) (s : State) : State :=
  let d := s.draws
  { s with
    freq := if fp.table then drawTable 32 d .freq else s.freq
    nsym := if fp.table then Config.draw 9 d .nsym 0 else s.nsym
    origLen := if fp.table then Config.draw 64 d .origLen 0 else s.origLen
    payAddr := if fp.pay then Config.draw 32 d .payAddr 0 else s.payAddr
    payLen := if fp.pay then Config.draw 32 d .payLen 0 else s.payLen
    payFbb := if fp.pay then Config.draw 4 d .payFbb 0 else s.payFbb
    arena := if fp.tree then freeArena d else s.arena
    root := if fp.tree then Config.draw 9 d .root 0 else s.root
    codeLen := if fp.codes then drawTable 8 d .codeLen else s.codeLen
    codeBits := if fp.codes then drawTable 256 d .codeBits else s.codeBits
    totalBits := if fp.summary then Config.draw 64 d .totalBits 0 else s.totalBits
    finalBits := if fp.summary then Config.draw 4 d .finalBits 0 else s.finalBits
    resultLen := if fp.output then Config.draw 32 d .resultLen 0 else s.resultLen
    mem := if fp.output then s.scrambleDst else s.mem
    tableValid := if fp.tableFlag then freeBool d .flag 0 else s.tableValid
    treeValid := if fp.treeFlag then freeBool d .flag 1 else s.treeValid
    codesValid := if fp.codesFlag then freeBool d .flag 2 else s.codesValid
    hdrValid := if fp.hdrFlag then freeBool d .flag 3 else s.hdrValid }

/-- The completion step of a raced command (R265): it still completes, with one of its codes or 0x00. -/
def raceComplete (fp : Footprint) (s : State) : State :=
  { scramble fp s with
    inflight := none
    done := true
    err := freeBool s.draws .err 0
    errCode := freeErr fp.errs s.draws
    doneIp := true
    draws := s.draws + 1 }

/-- The completion step of a command (R115): its pseudocode's, or the race's. -/
def finish (fp : Footprint) (s : State) (r : Run) : Host.Outcome State Fault Refusal :=
  .next (if s.raced then raceComplete fp s else r.complete)

end Sys2Proof.Machine
end

