-- ==== Sys2Proof/Machine/Bus.lean ====
section
/-! DEFINITION. What comes from outside the core: the register bus (10_state.md R20 to R39,
40_host_interface.md R110 to R114), memory accesses while a command runs (70_reset_and_hazards.md R265), and
the reset input (R260 to R262). -/

namespace Sys2Proof.Machine

/-! ## The register map (R20) -/

/-- The register at a byte offset; an offset with none is unused. -/
def regAt (off : Byte) : Option Reg :=
  match off.toNat with
  | 0x00 => some .id
  | 0x04 => some .cmd
  | 0x08 => some .status
  | 0x0C => some .intEn
  | 0x10 => some .intStatus
  | 0x14 => some .srcAddr
  | 0x18 => some .srcLen
  | 0x1C => some .dstAddr
  | 0x20 => some .dstCap
  | 0x24 => some .resultLen
  | 0x28 => some .nsym
  | 0x2C => some .origLenLo
  | 0x30 => some .origLenHi
  | 0x34 => some .totalBitsLo
  | 0x38 => some .totalBitsHi
  | 0x3C => some .finalBits
  | 0x40 => some .root
  | 0x44 => some .nodeCount
  | 0x48 => some .payAddr
  | 0x4C => some .payLen
  | 0x50 => some .payFbb
  | 0x54 => some .tblIndex
  | 0x58 => some .freqData
  | 0x5C => some .codeLenData
  | 0x60 => some (.codeBitsData 0)
  | 0x64 => some (.codeBitsData 1)
  | 0x68 => some (.codeBitsData 2)
  | 0x6C => some (.codeBitsData 3)
  | 0x70 => some (.codeBitsData 4)
  | 0x74 => some (.codeBitsData 5)
  | 0x78 => some (.codeBitsData 6)
  | 0x7C => some (.codeBitsData 7)
  | 0x80 => some .nodeInfo
  | 0x84 => some .nodeLink
  | 0x88 => some .nodeWLo
  | 0x8C => some .nodeWHi
  | _ => none

/-- The symbol the readback shows, TBL_INDEX[7:0] (R37). -/
def State.tblSym (s : State) : Byte := s.tblIndex.setWidth 8

/-- The node the readback shows, if TBL_INDEX < NODE_COUNT (R39). -/
def State.tblNode (s : State) : Option Node := s.arena[s.tblIndex.toNat]?

/-- NODE_INFO (R39). -/
def nodeInfoWord (n : Node) : Word :=
  match n with
  | .leaf b _ => bitAt true 31 ||| b.setWidth 32
  | .fork _ _ _ r => bitAt true 31 ||| bitAt true 30 ||| bitAt (decide (r ≠ nodeNone)) 29
      ||| n.minSym.setWidth 32

/-- NODE_LINK (R39). -/
def nodeLinkWord (n : Node) : Word :=
  match n with
  | .leaf _ _ => (nodeNone.setWidth 32 <<< 16) ||| nodeNone.setWidth 32
  | .fork _ _ l r => (r.setWidth 32 <<< 16) ||| l.setWidth 32

/-- A node's readback, 0 where TBL_INDEX names none (R39). -/
def State.nodeView (s : State) (f : Node → Word) : Word :=
  match s.tblNode with
  | some n => f n
  | none => 0

/-- Bits [63:32] of a 64-bit register. -/
def hiWord (v : DWord) : Word := (v >>> 32).setWidth 32

/-- Bits [31:0] of a 64-bit register. -/
def loWord (v : DWord) : Word := v.setWidth 32

/-- The value a register reads, reserved bits 0 (R110, R21 to R39). -/
def State.readReg (s : State) (r : Reg) : Word :=
  match r with
  | .id => Config.idValue
  | .cmd => 0
  | .status => s.statusWord
  | .intEn => bitAt s.doneIe 0
  | .intStatus => bitAt s.doneIp 0
  | .srcAddr => s.srcAddr
  | .srcLen => s.srcLen
  | .dstAddr => s.dstAddr
  | .dstCap => s.dstCap
  | .resultLen => s.resultLen
  | .nsym => s.nsym.setWidth 32
  | .origLenLo => loWord s.origLen
  | .origLenHi => hiWord s.origLen
  | .totalBitsLo => loWord s.totalBits
  | .totalBitsHi => hiWord s.totalBits
  | .finalBits => s.finalBits.setWidth 32
  | .root => s.root.setWidth 32
  | .nodeCount => BitVec.ofNat 32 s.arena.length
  | .payAddr => s.payAddr
  | .payLen => s.payLen
  | .payFbb => s.payFbb.setWidth 32
  | .tblIndex => s.tblIndex.setWidth 32
  | .freqData => tget s.freq s.tblSym
  | .codeLenData => (tget s.codeLen s.tblSym).setWidth 32
  | .codeBitsData j => (tget s.codeBits s.tblSym >>> (32 * j.val)).setWidth 32
  | .nodeInfo => s.nodeView nodeInfoWord
  | .nodeLink => s.nodeView nodeLinkWord
  | .nodeWLo => s.nodeView fun n => loWord n.weight
  | .nodeWHi => s.nodeView fun n => hiWord n.weight

/-- The registers whose reads have a value while BUSY = 1 (R112). -/
def Reg.readableBusy (r : Reg) : Bool :=
  match r with
  | .id | .cmd | .status | .intEn | .intStatus | .srcAddr | .srcLen | .dstAddr | .dstCap | .tblIndex => true
  | .resultLen | .nsym | .origLenLo | .origLenHi | .totalBitsLo | .totalBitsHi | .finalBits | .root
  | .nodeCount | .payAddr | .payLen | .payFbb | .freqData | .codeLenData | .codeBitsData _
  | .nodeInfo | .nodeLink | .nodeWLo | .nodeWHi => false

/-- What a read of an offset returns: 0 where it is unused (R20), any value where R114 gives none. -/
def State.busRead (s : State) (off : Byte) : Word :=
  match regAt off with
  | none => 0
  | some r => if s.busy && !r.readableBusy then Config.draw 32 s.draws .busRead 0 else s.readReg r

/-- A host write to a register (the pseudocode of R111). -/
def State.writeReg (s : State) (r : Reg) (v : Word) : State :=
  match r with
  | .intEn => { s with doneIe := v.getLsbD 0 }
  | .intStatus => s.acknowledge v
  | .cmd =>
    if s.busy then { s with wbusy := true }
    else { s.accept v (Config.latency s.draws) with draws := s.draws + 1 }
  | .tblIndex => if s.busy then { s with wbusy := true } else { s with tblIndex := v.setWidth 9 }
  | .srcAddr => if s.busy then { s with wbusy := true } else { s with srcAddr := v }
  | .srcLen => if s.busy then { s with wbusy := true } else { s with srcLen := v }
  | .dstAddr => if s.busy then { s with wbusy := true } else { s with dstAddr := v }
  | .dstCap => if s.busy then { s with wbusy := true } else { s with dstCap := v }
  | .id | .status | .resultLen | .nsym | .origLenLo | .origLenHi | .totalBitsLo | .totalBitsHi | .finalBits
  | .root | .nodeCount | .payAddr | .payLen | .payFbb | .freqData | .codeLenData | .codeBitsData _
  | .nodeInfo | .nodeLink | .nodeWLo | .nodeWHi => s

/-- A host write to an offset: ignored where the offset is unused (R20), and while reset is asserted, when the
registers hold their reset values (R262, log entry 12). -/
def State.busWrite (s : State) (off : Byte) (v : Word) : State :=
  if s.rst then s
  else
    match regAt off with
    | none => s
    | some r => s.writeReg r v

/-! ## Memory accesses while a command runs (R265) -/

/-- The windows a command reads (20_memory.md R65; DECODE's payload lies inside its source window, log
entry 19). -/
def readWindows (i : Instr) (s : State) : List Window :=
  match i with
  | .clear => []
  | .count => [s.srcWindow]
  | .buildTree => []
  | .assignCodes => []
  | .emitStream => [s.srcWindow]
  | .parseHeader => [s.srcWindow]
  | .decodePayload => [s.payWindow]
  | .encode => [s.srcWindow]
  | .decode => [s.srcWindow]

/-- The windows a command writes (R65). -/
def writeWindows (i : Instr) (s : State) : List Window :=
  match i with
  | .clear => []
  | .count => []
  | .buildTree => []
  | .assignCodes => []
  | .emitStream => [s.dstWindow]
  | .parseHeader => []
  | .decodePayload => [s.dstWindow]
  | .encode => [s.dstWindow]
  | .decode => [s.dstWindow]

/-- The command in flight, if one is and its word is legal. -/
def State.running (s : State) : Option Instr :=
  match s.inflight with
  | none => none
  | some f =>
    match decodeWord f.word with
    | .ok i => some i
    | .error _ => none

/-- The address is in a window the running command writes. -/
def State.inWriteWindow (s : State) (a : Nat) : Bool :=
  match s.running with
  | none => false
  | some i => (writeWindows i s).any fun w => w.contains a

/-- The address is in a window the running command reads or writes. -/
def State.inWindow (s : State) (a : Nat) : Bool :=
  match s.running with
  | none => false
  | some i => (readWindows i s ++ writeWindows i s).any fun w => w.contains a

/-- The running command has been raced. -/
def State.markRaced (s : State) : State :=
  { s with inflight := s.inflight.map fun f => { f with raced := true } }

/-- A byte written by the host or another agent (R60, R265). -/
def State.outsideWrite (s : State) (a : Word) (b : Byte) : State :=
  let t := { s with mem := s.mem.write a.toNat b }
  if s.inWindow a.toNat then t.markRaced else t

/-- What a memory read by the host returns (R72, R265). -/
def State.outsideRead (s : State) (a : Word) : Byte :=
  if s.inWriteWindow a.toNat then Config.draw 8 s.draws .memRead 0 else s.mem.read a.toNat

/-! ## The reset input (R260 to R262) -/

/-- Memory after a reset: the write window of an aborted command holds any value (R261). -/
def State.abortMem (s : State) : Memory :=
  match s.running with
  | none => s.mem
  | some i => if writeWindows i s = [] then s.mem else s.scrambleDst

/-- Reset is asserted: every register takes its R260 value, the tables any value, and a command in flight is
aborted with no completion step (R261). -/
def State.assertReset (s : State) : State :=
  { State.resetWith s.abortMem (drawTable 32 s.draws .freq) (drawTable 8 s.draws .codeLen)
      (drawTable 256 s.draws .codeBits) with
    rst := true
    inputs := s.inputs
    seen := s.seen
    draws := s.draws + 1 }

/-! ## One turn of the outside world -/

/-- What an event does. -/
def State.event (s : State) (e : HostEvent) : State :=
  match e with
  | .write off v => s.busWrite off v
  | .read off => { s with seen := s.seen ++ [.reg off (s.busRead off)], draws := s.draws + 1 }
  | .memWrite a b => s.outsideWrite a b
  | .memRead a => { s with seen := s.seen ++ [.mem a (s.outsideRead a)], draws := s.draws + 1 }
  | .rstAssert => s.assertReset
  | .rstRelease => { s with rst := false }

/-- The next event, if one is there; else nothing happens (60_exceptions.md R250). -/
def State.turn (s : State) : State :=
  match s.inputs with
  | [] => s
  | e :: rest => { s with inputs := rest }.event e

/-- One turn nearer to the completion step (log entry 1). -/
def State.countDown (s : State) : State :=
  { s with inflight := s.inflight.map fun f => { f with wait := f.wait - 1 } }

end Sys2Proof.Machine
end

