-- ==== Sys2Proof/Machine/Tree.lean ====
section
/-! DEFINITION. The tree builder: BUILD_TREE (42_tree_builder.md). -/

namespace Sys2Proof.Machine

/-- An entry of the priority queue: a node and its index (R152). -/
structure QEntry where
  idx : Nat
  node : Node
  deriving DecidableEq, Repr

/-- key(a) < key(b): weight first, then minSym (R151). -/
def Node.keyLt (a b : Node) : Bool :=
  decide (a.weight < b.weight ∨ (a.weight = b.weight ∧ a.minSym < b.minSym))

/-- insert(Q, e) (R152): the queue is kept in the order of extraction, so that extractMin takes its head. -/
def insertKey (e : QEntry) : List QEntry → List QEntry
  | [] => [e]
  | q :: qs => if e.node.keyLt q.node then e :: q :: qs else q :: insertKey e qs

/-- The leaves, in ascending symbol order (R153, R158). -/
def leavesOf (freq : Vector Word 256) : List Node :=
  (present freq).map fun b => .leaf b ((tget freq b).setWidth 64)

/-- The queue that holds the given nodes, numbered from k on. -/
def queueOf : Nat → List Node → List QEntry
  | _, [] => []
  | k, n :: ns => insertKey { idx := k, node := n } (queueOf (k + 1) ns)

/-- The fork of two extracted entries: a, the smaller key, on the left (R153, R157). -/
def forkOf (a b : QEntry) : Node :=
  .fork (a.node.weight + b.node.weight) (unionSyms a.node.content b.node.content)
    (BitVec.ofNat 9 a.idx) (BitVec.ofNat 9 b.idx)

/-- "while |Q| > 1" (R153): merge the two smallest keys into a new node at the arena's end. A merge takes one
entry off the queue, so its length bounds the merges. -/
def mergeLoop : Nat → List Node → List QEntry → List Node × List QEntry
  | 0, arena, q => (arena, q)
  | fuel + 1, arena, q =>
    match q with
    | a :: b :: rest =>
      mergeLoop fuel (arena ++ [forkOf a b]) (insertKey { idx := arena.length, node := forkOf a b } rest)
    | _ => (arena, q)

/-- The arena and ROOT of a table with NSYM ≥ 1 (R153, R155). The free values stand where a table that only
a race can leave names no node (log entry 15). -/
def buildArena (freq : Vector Word 256) (nsym : BitVec 9) (seed : Nat) : List Node × NodeIdx :=
  let leaves := leavesOf freq
  if nsym = 1 then
    let n := leaves.headD (freeNode seed 0)
    ([n, .fork n.weight [n.minSym] 0 nodeNone], 1)
  else
    let (arena, q) := mergeLoop leaves.length leaves (queueOf 0 leaves)
    match q with
    | e :: _ => (arena, BitVec.ofNat 9 e.idx)
    | [] => (arena, Config.draw 9 seed .root 0)

/-- What a successful BUILD_TREE leaves (R153). -/
def State.treeBuilt (s : State) : State :=
  { s.flagsTree with
    arena := (buildArena s.freq s.nsym s.draws).1
    root := (buildArena s.freq s.nsym s.draws).2 }

/-- BUILD_TREE's pseudocode (R153). -/
def runBuildTree (s : State) : Run :=
  if s.tableValid = false then .raise .sequence s
  else if s.nsym = 0 then .raise .emptyTable s
  else .ok s.treeBuilt

/-- What BUILD_TREE writes, and its errors (R230). -/
def buildTreeFootprint : Footprint :=
  { tree := true, treeFlag := true, codesFlag := true, errs := [.sequence, .emptyTable] }

/-- BUILD_TREE (R150 to R159). -/
def execBuildTree (s : State) : Host.Outcome State Fault Refusal :=
  finish buildTreeFootprint s (runBuildTree s)

end Sys2Proof.Machine
end

