-- ==== Sys2Proof/Machine/Codes.lean ====
section
/-! DEFINITION. The code assigner: ASSIGN_CODES (43_code_assigner.md). -/

namespace Sys2Proof.Machine

/-- CODE_LEN and CODE_BITS together, the document's CodeTable (10_state.md R42). -/
structure CodeTable where
  len : Vector Byte 256
  bits : Vector CodeWord 256
  deriving DecidableEq, Repr

/-- The table with no code. -/
def emptyCodes : CodeTable := { len := tabulate fun _ => 0, bits := tabulate fun _ => 0 }

/-- CODE_LEN[s] <- d; CODE_BITS[s] <- zext_256(v). -/
def CodeTable.record (t : CodeTable) (b : Byte) (d v : Nat) : CodeTable :=
  { len := tset t.len b (BitVec.ofNat 8 d), bits := tset t.bits b (BitVec.ofNat 256 v) }

/-- walk(i, v, d) (R171), for at most `fuel` more levels. `none` if the walk goes deeper: a code of more than
255 bits (R172). -/
def walkCodes (arena : List Node) (seed : Nat) : Nat → NodeIdx → Nat → Nat → CodeTable → Option CodeTable
  | 0, _, _, _, _ => none
  | fuel + 1, i, v, d, t =>
    match nodeAt arena seed i with
    | .leaf b _ => some (t.record b d v)
    | .fork _ _ l r =>
      match walkCodes arena seed fuel l (2 * v) (d + 1) t with
      | none => none
      | some t' => if r = nodeNone then some t' else walkCodes arena seed fuel r (2 * v + 1) (d + 1) t'

/-- The code table of a tree (R171). Where the arena is no tree of depth at most 255, which only a race can
leave with TREE_VALID = 1, every entry is any value (log entry 15). -/
def codesOf (arena : List Node) (root : NodeIdx) (seed : Nat) : CodeTable :=
  match walkCodes arena seed 256 root 0 0 emptyCodes with
  | some t => t
  | none => { len := drawTable 8 seed .codeLen, bits := drawTable 256 seed .codeBits }

/-- TOTAL_BITS (R171, R173). -/
def totalBitsOf (freq : Vector Word 256) (codeLen : Vector Byte 256) : DWord :=
  BitVec.ofNat 64 (codedBits freq codeLen)

/-- What a successful ASSIGN_CODES leaves when t is the tree's code table (R171). -/
def State.loadCodes (s : State) (t : CodeTable) : State :=
  { s.flagsCodes with
    codeLen := t.len
    codeBits := t.bits
    totalBits := totalBitsOf s.freq t.len
    finalBits := finalBitsOf (totalBitsOf s.freq t.len) }

/-- ASSIGN_CODES's pseudocode (R171). -/
def runAssignCodes (s : State) : Run :=
  if s.treeValid = false then .raise .sequence s
  else .ok (s.loadCodes (codesOf s.arena s.root s.draws))

/-- What ASSIGN_CODES writes, and its error (R230). -/
def assignCodesFootprint : Footprint :=
  { codes := true, summary := true, codesFlag := true, errs := [.sequence] }

/-- ASSIGN_CODES (R170 to R173). -/
def execAssignCodes (s : State) : Host.Outcome State Fault Refusal :=
  finish assignCodesFootprint s (runAssignCodes s)

end Sys2Proof.Machine
end

