-- ==== Sys2Proof/Machine/Table.lean ====
section
/-! DEFINITION. The frequency counter: CLEAR and COUNT (41_symbol_table.md). -/

namespace Sys2Proof.Machine

/-- CLEAR's pseudocode (R130). -/
def runClear (s : State) : Run :=
  .ok { s.flagsNone with
    freq := tabulate fun _ => 0
    codeLen := tabulate fun _ => 0
    codeBits := tabulate fun _ => 0
    arena := []
    root := nodeNone
    nsym := 0
    origLen := 0
    totalBits := 0
    finalBits := 0
    payAddr := 0
    payLen := 0
    payFbb := 0
    resultLen := 0 }

/-- What CLEAR writes; it has no window and no error of its own. -/
def clearFootprint : Footprint :=
  { table := true, pay := true, tree := true, codes := true, summary := true,
    tableFlag := true, treeFlag := true, codesFlag := true, hdrFlag := true }

/-- CLEAR (R130, R131). -/
def execClear (s : State) : Host.Outcome State Fault Refusal := finish clearFootprint s (runClear s)

/-- The table registers after f is loaded (R132). -/
def State.loadTable (s : State) (f : Vector Word 256) (orig : Nat) : State :=
  { s with
    freq := f
    nsym := BitVec.ofNat 9 (present f).length
    origLen := BitVec.ofNat 64 orig }

/-- COUNT's pseudocode (R132). -/
def runCount (s : State) : Run :=
  if s.srcWindow.inRange then
    .ok (s.loadTable (histogram s.srcBytes) s.srcLen.toNat).flagsTable
  else .raise .addressRange s

/-- What COUNT writes, and its errors (R230). -/
def countFootprint : Footprint :=
  { table := true, tableFlag := true, treeFlag := true, codesFlag := true, hdrFlag := true,
    errs := [.addressRange] }

/-- COUNT (R132 to R134). -/
def execCount (s : State) : Host.Outcome State Fault Refusal := finish countFootprint s (runCount s)

end Sys2Proof.Machine
end

