-- ==== Sys2Proof/Machine/Encoder.lean ====
section
/-! DEFINITION. The bitstream encoder: EMIT_STREAM and ENCODE (44_encoder.md). -/

namespace Sys2Proof.Machine

/-! ## The bit packer (R186) -/

/-- The bit packer: its partial byte, its fill count, and the bytes it has written. -/
structure Packer where
  acc : Byte
  n : Nat
  out : List Byte
  deriving DecidableEq, Repr

/-- writeBit(b) (R186). -/
def Packer.writeBit (p : Packer) (b : Bool) : Packer :=
  let acc := p.acc <<< 1 ||| (if b then 1 else 0)
  if p.n + 1 = 8 then { acc := 0, n := 0, out := p.out ++ [acc] }
  else { acc := acc, n := p.n + 1, out := p.out }

/-- flush() (R186): the partial byte, padded with zero bits. -/
def Packer.flush (p : Packer) : List Byte :=
  if 0 < p.n then p.out ++ [p.acc <<< (8 - p.n)] else p.out

/-- The bytes that hold a sequence of bits, most significant bit first (30_encoding.md R93). -/
def packBits (bs : List Bool) : List Byte :=
  (bs.foldl Packer.writeBit { acc := 0, n := 0, out := [] }).flush

/-! ## The stream (30_encoding.md R90) -/

/-- H(n), the header's length (R90). -/
def headerLen (n : Nat) : Nat := 13 + 5 * n

/-- One entry a present symbol, ascending: the symbol, then its frequency (R185). -/
def entryBytes (freq : Vector Word 256) : List Byte :=
  (present freq).flatMap fun b => b :: beBytes 4 (tget freq b).toNat

/-- The header without its last byte: the fixed fields and the entries (R185). -/
def headerStart (freq : Vector Word 256) (nsym orig : Nat) : List Byte :=
  beBytes 4 nsym ++ beBytes 8 orig ++ entryBytes freq

/-- The header (R185). -/
def headerBytes (freq : Vector Word 256) (nsym orig fbb : Nat) : List Byte :=
  headerStart freq nsym orig ++ [BitVec.ofNat 8 fbb]

/-- The code bits of a sequence of symbols, in order (30_encoding.md R93). -/
def encodeBits (codeLen : Vector Byte 256) (codeBits : Vector CodeWord 256) (bs : List Byte) : List Bool :=
  bs.flatMap fun b => codeBitList (tget codeLen b) (tget codeBits b)

/-! ## EMIT_STREAM -/

/-- TABLE_VALID = 1 and NSYM = 0 (R181). -/
def State.emptyTable (s : State) : Bool := s.tableValid && decide (s.nsym = 0)

/-- tb (R180). -/
def State.emitTotalBits (s : State) : Nat := if s.emptyTable then 0 else s.totalBits.toNat

/-- fbb (R180). -/
def State.emitFinalBits (s : State) : Nat := if s.emptyTable then 0 else s.finalBits.toNat

/-- size (R183). -/
def State.emitSize (s : State) : Nat := headerLen s.nsym.toNat + ceil8 s.emitTotalBits

/-- The code bits of the source window. -/
def State.emitBits (s : State) : List Bool := encodeBits s.codeLen s.codeBits s.srcBytes

/-- Memory after the stream is written, in the pseudocode's order (R180): the fixed fields and the entries, then
finalByteBits at its own offset and the payload after it. Nothing is written past `emitSize` (R183). The two pieces
meet exactly where NSYM and TOTAL_BITS belong to FREQ and the codes; only a race leaves others (log entry 28). -/
def State.emitMem (s : State) : Memory :=
  let dst := s.dstAddr.toNat
  let last := headerLen s.nsym.toNat - 1
  (s.mem.writeBytes dst ((headerStart s.freq s.nsym.toNat s.origLen.toNat).take s.emitSize)).writeBytes
    (dst + last) ((BitVec.ofNat 8 s.emitFinalBits :: packBits s.emitBits).take (s.emitSize - last))

/-- What a successful EMIT_STREAM leaves (R187). -/
def State.emitted (s : State) : State :=
  { s with
    mem := s.emitMem
    totalBits := if s.emptyTable then 0 else s.totalBits
    finalBits := if s.emptyTable then 0 else s.finalBits
    resultLen := BitVec.ofNat 32 s.emitSize }

/-- EMIT_STREAM's pseudocode (R180), its checks in the order of 60_exceptions.md R235. -/
def runEmitStream (s : State) : Run :=
  Run.zeroLength <|
    if !(s.codesValid || s.emptyTable) then .raise .sequence s
    else if !(s.srcWindow.inRange && s.dstWindow.inRange) then .raise .addressRange s
    else if s.srcWindow.overlaps s.dstWindow then .raise .overlap s
    else if s.dstCap.toNat < s.emitSize then .raise .outputOverflow s
    else if !tableEq (histogram s.srcBytes) s.freq then .raise .inputMismatch { s with mem := s.scrambleDst }
    else .ok s.emitted

/-- What EMIT_STREAM writes, and its errors (R230). TOTAL_BITS and FINAL_BITS, which R187 writes on an empty
table only, are in it whatever the table: DESIGN CHOICE, log entry 26. -/
def emitStreamFootprint : Footprint :=
  { summary := true, output := true,
    errs := [.sequence, .addressRange, .overlap, .inputMismatch, .outputOverflow] }

/-- EMIT_STREAM (R180 to R188). -/
def execEmitStream (s : State) : Host.Outcome State Fault Refusal :=
  finish emitStreamFootprint s (runEmitStream s)

/-! ## ENCODE -/

/-- BUILD_TREE and ASSIGN_CODES if NSYM ≥ 1 (R190, R191). -/
def runBuildAndAssign (s : State) : Run :=
  if s.nsym = 0 then .ok s else (runBuildTree s).andThen runAssignCodes

/-- ENCODE's pseudocode (R190, R192). -/
def runEncode (s : State) : Run :=
  (((runCount s).andThen runBuildAndAssign).andThen runEmitStream).zeroLength

/-- What ENCODE's steps write, and its errors (R230). -/
def encodeFootprint : Footprint :=
  { table := true, tree := true, codes := true, summary := true, output := true,
    tableFlag := true, treeFlag := true, codesFlag := true, hdrFlag := true,
    errs := [.addressRange, .overlap, .inputMismatch, .outputOverflow] }

/-- ENCODE (R190 to R192). -/
def execEncode (s : State) : Host.Outcome State Fault Refusal := finish encodeFootprint s (runEncode s)

end Sys2Proof.Machine
end

