-- ==== Sys2Proof/Machine/Decoder.lean ====
section
/-! DEFINITION. The bitstream decoder: PARSE_HEADER, DECODE_PAYLOAD and DECODE (45_decoder.md). -/

namespace Sys2Proof.Machine

/-! ## PARSE_HEADER -/

/-- What the entries of a header give: the table and the sum of its frequencies. -/
structure Entries where
  freq : Vector Word 256
  sum : Nat
  deriving DecidableEq, Repr

/-- The entry loop (R200, R204): n more entries, the first at address a. -/
def parseEntries (m : Memory) : Nat → Nat → Entries → Except ErrCode Entries
  | 0, _, e => .ok e
  | n + 1, a, e =>
    let b := m.read a
    let c := m.beRead (a + 1) 4
    if c = 0 then .error .corruptZeroFrequency
    else if tget e.freq b ≠ 0 then .error .corruptDuplicateSymbol
    else parseEntries m n (a + 5) { freq := tset e.freq b (BitVec.ofNat 32 c), sum := e.sum + c }

/-- What a header says. -/
structure Header where
  freq : Vector Word 256
  nsym : Nat
  orig : Nat
  fbb : Nat
  deriving DecidableEq, Repr

/-- The last byte of the stream has a 1 among its padding bits (30_encoding.md R94). -/
def paddingBad (m : Memory) (a len p fbb : Nat) : Bool :=
  decide (0 < p ∧ fbb < 8 ∧ (m.read (a + len - 1)).toNat % 2 ^ (8 - fbb) ≠ 0)

/-- The checks after the count and the length are known (R200, R204, R205). -/
def parseBody (m : Memory) (a len n : Nat) : Except ErrCode Header :=
  let orig := m.beRead (a + 4) 8
  match parseEntries m n (a + 12) { freq := tabulate fun _ => 0, sum := 0 } with
  | .error e => .error e
  | .ok e =>
    let fbb := (m.read (a + 12 + 5 * n)).toNat
    let p := len - headerLen n
    if e.sum ≠ orig then .error .corruptSumMismatch
    else if !finalByteBitsLegal p fbb then .error .corruptFinalBits
    else if paddingBad m a len p fbb then .error .corruptPadding
    else .ok { freq := e.freq, nsym := n, orig := orig, fbb := fbb }

/-- The header of the len bytes at address a, with the checks in the order of R200. -/
def parseHeader (m : Memory) (a len : Nat) : Except ErrCode Header :=
  if len < 4 then .error .corruptTruncated
  else
    let n := m.beRead a 4
    if 256 < n then .error .corruptSymbolCount
    else if len < headerLen n then .error .corruptTruncated
    else parseBody m a len n

/-- What PARSE_HEADER may have loaded when it ends with a CORRUPT_* error: FREQ, NSYM, ORIG_LEN and PAY_* hold
any value, and all four flags are cleared (R207). -/
def State.corruptHeader (s : State) : State :=
  (scramble { table := true, pay := true } s).flagsNone

/-- The registers an accepted header loads (R200, R206). -/
def State.loadHeader (s : State) (h : Header) : State :=
  { s.flagsHeader with
    freq := h.freq
    nsym := BitVec.ofNat 9 h.nsym
    origLen := BitVec.ofNat 64 h.orig
    payAddr := BitVec.ofNat 32 (s.srcAddr.toNat + headerLen h.nsym)
    payLen := BitVec.ofNat 32 (s.srcLen.toNat - headerLen h.nsym)
    payFbb := BitVec.ofNat 4 h.fbb }

/-- PARSE_HEADER's pseudocode (R200). -/
def runParseHeader (s : State) : Run :=
  if !s.srcWindow.inRange then .raise .addressRange s
  else
    match parseHeader s.mem s.srcAddr.toNat s.srcLen.toNat with
    | .error e => .raise e s.corruptHeader
    | .ok h => .ok (s.loadHeader h)

/-- The errors of a header (R230). -/
def headerErrs : List ErrCode :=
  [.corruptTruncated, .corruptSymbolCount, .corruptZeroFrequency, .corruptDuplicateSymbol,
    .corruptSumMismatch, .corruptFinalBits, .corruptPadding]

/-- What PARSE_HEADER writes, and its errors (R230). -/
def parseHeaderFootprint : Footprint :=
  { table := true, pay := true, tableFlag := true, treeFlag := true, codesFlag := true, hdrFlag := true,
    errs := .addressRange :: headerErrs }

/-- PARSE_HEADER (R200 to R207). -/
def execParseHeader (s : State) : Host.Outcome State Fault Refusal :=
  finish parseHeaderFootprint s (runParseHeader s)

/-! ## DECODE_PAYLOAD -/

/-- The walk of one symbol (R215): from node i, one bit a fork, until a leaf. It gives the symbol and the bits
left. -/
def walkSymbol (arena : List Node) (seed : Nat) : NodeIdx → List Bool → Except ErrCode (Byte × List Bool)
  | i, [] =>
    match nodeAt arena seed i with
    | .leaf b _ => .ok (b, [])
    | .fork _ _ _ _ => .error .corruptEndOfStream
  | i, bit :: bits =>
    match nodeAt arena seed i with
    | .leaf b _ => .ok (b, bit :: bits)
    | .fork _ _ l r =>
      let nxt := if bit then r else l
      if nxt = nodeNone then .error .corruptMissingChild else walkSymbol arena seed nxt bits

/-- The walk of n symbols (R215): the symbols and the bits left. -/
def walkSymbols (arena : List Node) (seed : Nat) (root : NodeIdx) :
    Nat → List Bool → Except ErrCode (List Byte × List Bool)
  | 0, bits => .ok ([], bits)
  | n + 1, bits =>
    match walkSymbol arena seed root bits with
    | .error e => .error e
    | .ok (b, rest) =>
      match walkSymbols arena seed root n rest with
      | .error e => .error e
      | .ok (bs, rest') => .ok (b :: bs, rest')

/-- The output of the payload, with the checks that follow the walk (R210, R216, R217). -/
def State.decodeOutput (s : State) : Except ErrCode (List Byte) :=
  match walkSymbols s.arena s.draws s.root s.origLen.toNat s.payloadBits with
  | .error e => .error e
  | .ok (out, rest) =>
    if rest ≠ [] then .error .corruptTrailingBits
    else if !tableEq (histogram out) s.freq then .error .corruptHistogram
    else .ok out

/-- What a successful DECODE_PAYLOAD leaves (R210). -/
def State.decoded (s : State) (out : List Byte) : State :=
  { s with
    mem := s.mem.writeBytes s.dstAddr.toNat out
    resultLen := s.origLen.setWidth 32 }

/-- DECODE_PAYLOAD's pseudocode (R210), its checks in the order of 60_exceptions.md R235. The payload window is
checked with the destination window (20_memory.md R64); only a race leaves it out of range (log entry 27). -/
def runDecodePayload (s : State) : Run :=
  Run.zeroLength <|
    if !s.hdrValid || (decide (s.nsym ≠ 0) && !s.treeValid) then .raise .sequence s
    else if !(s.payWindow.inRange && s.dstWindow.inRange) then .raise .addressRange s
    else if s.payWindow.overlaps s.dstWindow then .raise .overlap s
    else if s.dstCap.toNat < s.origLen.toNat then .raise .outputOverflow s
    else
      match s.decodeOutput with
      | .error e => .raise e { s with mem := s.scrambleDst }
      | .ok out => .ok (s.decoded out)

/-- The errors of a payload (R230). -/
def payloadErrs : List ErrCode :=
  [.corruptEndOfStream, .corruptMissingChild, .corruptTrailingBits, .corruptHistogram]

/-- What DECODE_PAYLOAD writes, and its errors (R230). -/
def decodePayloadFootprint : Footprint :=
  { output := true, errs := [.sequence, .addressRange, .overlap, .outputOverflow] ++ payloadErrs }

/-- DECODE_PAYLOAD (R210 to R218). -/
def execDecodePayload (s : State) : Host.Outcome State Fault Refusal :=
  finish decodePayloadFootprint s (runDecodePayload s)

/-! ## DECODE -/

/-- BUILD_TREE if NSYM ≥ 1 (R220). -/
def runBuildIfAny (s : State) : Run := if s.nsym = 0 then .ok s else runBuildTree s

/-- DECODE's pseudocode (R220, R221). -/
def runDecode (s : State) : Run :=
  (((runParseHeader s).andThen runBuildIfAny).andThen runDecodePayload).zeroLength

/-- What DECODE's steps write, and its errors (R230). -/
def decodeFootprint : Footprint :=
  { table := true, pay := true, tree := true, output := true,
    tableFlag := true, treeFlag := true, codesFlag := true, hdrFlag := true,
    errs := [.addressRange, .overlap, .outputOverflow] ++ headerErrs ++ payloadErrs }

/-- DECODE (R220, R221). -/
def execDecode (s : State) : Host.Outcome State Fault Refusal := finish decodeFootprint s (runDecode s)

end Sys2Proof.Machine
end

