-- ==== Sys2Proof/Machine/Dispatch.lean ====
section
/-! DEFINITION. One arm per command: its completion step (40_host_interface.md R115). -/

namespace Sys2Proof.Machine

def exec (i : Instr) (s : State) : Host.Outcome State Fault Refusal :=
  match i with
  | .clear => Sys2Proof.Machine.execClear s
  | .count => Sys2Proof.Machine.execCount s
  | .buildTree => Sys2Proof.Machine.execBuildTree s
  | .assignCodes => Sys2Proof.Machine.execAssignCodes s
  | .emitStream => Sys2Proof.Machine.execEmitStream s
  | .parseHeader => Sys2Proof.Machine.execParseHeader s
  | .decodePayload => Sys2Proof.Machine.execDecodePayload s
  | .encode => Sys2Proof.Machine.execEncode s
  | .decode => Sys2Proof.Machine.execDecode s

end Sys2Proof.Machine
end

