-- ==== Sys2Proof/Machine/Step.lean ====
section
/-! DEFINITION. One step: the completion step of the command in flight when its latency has passed
(40_host_interface.md R115), else one turn of the outside world (00_scope.md R5, R6). -/

namespace Sys2Proof.Machine

/-- The completion step of a latched command word (R115); an illegal word completes at once with
ILLEGAL_COMMAND (30_encoding.md R82). -/
def runWord (w : Word) (s : State) : Host.Outcome State Fault Refusal :=
  match decodeWord w with
  | .ok i => exec i s
  | .error _ => .next s.completeIllegal

/-- One step of the machine. -/
def step (s : State) : Host.Outcome State Fault Refusal :=
  match s.inflight with
  | none => .next s.turn
  | some f => if f.wait = 0 then runWord f.word s else .next s.countDown.turn

/-- s with a table row's word accepted as the current command (R113), its latency passed, so that the next
step is its completion step. HCC fetches no instruction from memory (10_state.md R46): the latched command is
where it takes one from. Log entry 3. -/
def State.withFetchWord (s : State) (nbits w : Nat) : State :=
  { s with rst := false }.accept (BitVec.ofNat 32 (w % 2 ^ nbits)) 0

end Sys2Proof.Machine
end

