-- ==== Sys2Proof/Safety.lean ====
section
/-! DEFINITION. The terms the statements use: the invariants of the machine (10_state.md R43 to R45), what a
command's rule leaves unchanged, and the reference forms of the tree builder and the stream. -/

namespace Sys2Proof.Machine

/-! ## The shape of a state -/

/-- Memory is in canonical form, the arena holds at most 511 nodes (R43), and no command is in flight while
reset is asserted (70_reset_and_hazards.md R262). -/
def State.shapeOk (s : State) : Bool :=
  s.mem.wf && decide (s.arena.length ≤ 511) && !(s.rst && s.busy)

/-! ## What the validity flags promise (R45) -/

/-- TABLE_VALID = 1: FREQ, NSYM and ORIG_LEN hold a frequency table. -/
def State.TableTruthful (s : State) : Prop :=
  s.tableValid = true → s.nsym.toNat = (present s.freq).length ∧ s.origLen.toNat = totalCount s.freq

/-- TREE_VALID = 1: TABLE_VALID = 1, and the arena is the tree BUILD_TREE gives for the current FREQ. -/
def State.TreeTruthful (s : State) : Prop :=
  s.treeValid = true → s.tableValid = true ∧ s.nsym ≠ 0 ∧
    ∃ seed, (s.arena, s.root) = buildArena s.freq s.nsym seed

/-- CODES_VALID = 1: TREE_VALID = 1, and the codes, TOTAL_BITS and FINAL_BITS are those ASSIGN_CODES gives for
the current tree. -/
def State.CodesTruthful (s : State) : Prop :=
  s.codesValid = true → s.treeValid = true ∧
    (∃ seed, ({ len := s.codeLen, bits := s.codeBits } : CodeTable) = codesOf s.arena s.root seed) ∧
    s.totalBits.toNat = codedBits s.freq s.codeLen ∧ s.finalBits = finalBitsOf s.totalBits

/-- HDR_VALID = 1: TABLE_VALID = 1, and PAY_* describe a payload an accepted header can have. -/
def State.HeaderTruthful (s : State) : Prop :=
  s.hdrValid = true → s.tableValid = true ∧ s.payWindow.inRange = true ∧
    finalByteBitsLegal s.payLen.toNat s.payFbb.toNat = true

/-- All four flags keep their promise (R45). -/
def State.FlagsTruthful (s : State) : Prop :=
  s.TableTruthful ∧ s.TreeTruthful ∧ s.CodesTruthful ∧ s.HeaderTruthful

/-! ## What stays unchanged -/

/-- Every byte outside the window reads as before. -/
def SameOutside (w : Window) (s t : State) : Prop :=
  ∀ a : Nat, w.contains a = false → t.mem.read a = s.mem.read a

/-- The registers a command never writes (40_host_interface.md R112), and WBUSY, LAST_OP and the inputs. -/
def SameHostSide (s t : State) : Prop :=
  t.srcAddr = s.srcAddr ∧ t.srcLen = s.srcLen ∧ t.dstAddr = s.dstAddr ∧ t.dstCap = s.dstCap ∧
  t.tblIndex = s.tblIndex ∧ t.doneIe = s.doneIe ∧ t.wbusy = s.wbusy ∧ t.lastOp = s.lastOp ∧
  t.rst = s.rst ∧ t.inputs = s.inputs ∧ t.seen = s.seen

/-- The completion step's own writes after error e, or none (R115, R232). -/
def Completed (e : ErrCode) (t : State) : Prop :=
  t.busy = false ∧ t.done = true ∧ t.err = decide (e ≠ .none) ∧ t.errCode = e ∧ t.doneIp = true

/-- The commands that emit: an error of one sets RESULT_LEN to 0 (60_exceptions.md R233). -/
def emits (i : Instr) : Bool :=
  match i with
  | .clear | .count | .buildTree | .assignCodes | .parseHeader => false
  | .emitStream | .decodePayload | .encode | .decode => true

/-- The error codes 60_exceptions.md R230 lists for a command. -/
def errsOf (i : Instr) : List ErrCode :=
  match i with
  | .clear => []
  | .count => [.addressRange]
  | .buildTree => [.sequence, .emptyTable]
  | .assignCodes => [.sequence]
  | .emitStream => [.sequence, .addressRange, .overlap, .inputMismatch, .outputOverflow]
  | .parseHeader => [.addressRange, .corruptTruncated, .corruptSymbolCount, .corruptZeroFrequency,
      .corruptDuplicateSymbol, .corruptSumMismatch, .corruptFinalBits, .corruptPadding]
  | .decodePayload => [.sequence, .addressRange, .overlap, .outputOverflow, .corruptEndOfStream,
      .corruptMissingChild, .corruptTrailingBits, .corruptHistogram]
  | .encode => [.addressRange, .overlap, .inputMismatch, .outputOverflow]
  | .decode => [.addressRange, .overlap, .outputOverflow, .corruptTruncated, .corruptSymbolCount,
      .corruptZeroFrequency, .corruptDuplicateSymbol, .corruptSumMismatch, .corruptFinalBits, .corruptPadding,
      .corruptEndOfStream, .corruptMissingChild, .corruptTrailingBits, .corruptHistogram]

/-! ## The tree, said without a queue (42_tree_builder.md) -/

/-- NSYM counts the symbols of FREQ. -/
def Counts (freq : Vector Word 256) (nsym : BitVec 9) : Prop := nsym.toNat = (present freq).length

/-- The weight and content of node i of an arena, if it holds one. -/
def nodeIs (arena : List Node) (i : Nat) (n : Node) : Prop := arena[i]? = some n

/-- "while |Q| > 1" of R153 with the queue as a collection in any order: from an arena and the indices in Q, the
two smallest keys are merged, the smaller on the left (R151, R157), until one index, the root, is left. -/
inductive Merges : List Node → List Nat → List Node → Nat → Prop where
  | done (arena : List Node) (r : Nat) : Merges arena [r] arena r
  | merge (arena : List Node) (q rest : List Nat) (a b : Nat) (na nb : Node) (arena' : List Node) (r : Nat)
      (members : q.Perm (a :: b :: rest))
      (first : nodeIs arena a na) (second : nodeIs arena b nb)
      (smallest : na.keyLt nb = true)
      (next : ∀ c ∈ rest, ∀ nc, nodeIs arena c nc → nb.keyLt nc = true)
      (later : Merges
        (arena ++ [.fork (na.weight + nb.weight) (unionSyms na.content nb.content)
          (BitVec.ofNat 9 a) (BitVec.ofNat 9 b)])
        (arena.length :: rest) arena' r) :
      Merges arena q arena' r

/-- R44: what an arena with this root is after a successful BUILD_TREE. -/
structure TreeOk (freq : Vector Word 256) (arena : List Node) (root : NodeIdx) : Prop where
  /-- item 1: a fork's weight is the sum and its content the disjoint union of its children's -/
  two_children : ∀ i w c l r, nodeIs arena i (.fork w c l r) → r ≠ nodeNone →
    ∃ nl nr, nodeIs arena l.toNat nl ∧ nodeIs arena r.toNat nr ∧
      w.toNat = nl.weight.toNat + nr.weight.toNat ∧
      (∀ b, b ∈ c ↔ b ∈ nl.content ∨ b ∈ nr.content) ∧ (∀ b, b ∈ nl.content → b ∉ nr.content)
  /-- item 2: the one-child root has its child's weight and content -/
  one_child : ∀ i w c l, nodeIs arena i (.fork w c l nodeNone) →
    i = root.toNat ∧ ∃ nl, nodeIs arena l.toNat nl ∧ w = nl.weight ∧ c = nl.content
  /-- item 3: a child's index is smaller than its parent's -/
  children_smaller : ∀ i w c l r, nodeIs arena i (.fork w c l r) →
    l.toNat < i ∧ (r ≠ nodeNone → r.toNat < i)
  /-- item 3: every node but the root is the child of exactly one fork -/
  one_parent : ∀ i, i < arena.length → i ≠ root.toNat →
    ∃! p, ∃ w c l r, nodeIs arena p (.fork w c l r) ∧ (l.toNat = i ∨ r.toNat = i)
  /-- item 3: the root is the child of none -/
  root_free : ∀ p w c l r, nodeIs arena p (.fork w c l r) → l.toNat ≠ root.toNat ∧ r.toNat ≠ root.toNat
  /-- item 4: each leaf's weight is its FREQ entry -/
  leaf_weight : ∀ i b w, nodeIs arena i (.leaf b w) → w.toNat = (tget freq b).toNat ∧ tget freq b ≠ 0
  /-- R154: the root's content is the set of present symbols -/
  root_content : ∃ n, nodeIs arena root.toNat n ∧ ∀ b, b ∈ n.content ↔ tget freq b ≠ 0

/-! ## Headers (30_encoding.md R90, R92, R94) -/

/-- symbolValue[i] of the stream at address a. -/
def entrySym (m : Memory) (a i : Nat) : Byte := m.read (a + 12 + 5 * i)

/-- frequency[i] of the stream at address a. -/
def entryFreq (m : Memory) (a i : Nat) : Nat := m.beRead (a + 13 + 5 * i) 4

/-- The len bytes at address a begin with a well-formed header, and their last byte is padded as R94 says. -/
structure HeaderWellFormed (m : Memory) (a len : Nat) : Prop where
  fixed_fields : 4 ≤ len
  symbol_count : m.beRead a 4 ≤ 256
  entries_fit : headerLen (m.beRead a 4) ≤ len
  frequencies_positive : ∀ i < m.beRead a 4, entryFreq m a i ≠ 0
  symbols_distinct : ∀ i < m.beRead a 4, ∀ j < m.beRead a 4, entrySym m a i = entrySym m a j → i = j
  sum_is_length : ((List.range (m.beRead a 4)).map (entryFreq m a)).sum = m.beRead (a + 4) 8
  final_bits : finalByteBitsLegal (len - headerLen (m.beRead a 4))
    (m.read (a + 12 + 5 * m.beRead a 4)).toNat = true
  padding_zero : headerLen (m.beRead a 4) < len →
    ∀ k < 8 - (m.read (a + 12 + 5 * m.beRead a 4)).toNat, (m.read (a + len - 1)).getLsbD k = false

/-! ## Codes and streams -/

/-- The code of symbol b in a code table. -/
def CodeTable.code (t : CodeTable) (b : Byte) : List Bool := codeBitList (tget t.len b) (tget t.bits b)

/-- The code table of a frequency table: BUILD_TREE, then ASSIGN_CODES. -/
def codesFor (freq : Vector Word 256) (nsym : BitVec 9) (seed : Nat) : CodeTable :=
  codesOf (buildArena freq nsym seed).1 (buildArena freq nsym seed).2 seed

/-- NSYM of a frequency table. -/
def nsymOf (freq : Vector Word 256) : BitVec 9 := BitVec.ofNat 9 (present freq).length

/-- The number of payload bits ENCODE gives the source window. -/
def State.encodedBits (s : State) : Nat :=
  let f := histogram s.srcBytes
  if nsymOf f = 0 then 0 else codedBits f (codesFor f (nsymOf f) s.draws).len

/-- The number of bytes of the stream ENCODE gives the source window (44_encoder.md R183). -/
def State.encodedSize (s : State) : Nat :=
  headerLen (nsymOf (histogram s.srcBytes)).toNat + ceil8 s.encodedBits

/-- What DECODE's first two steps leave in t after header h of s was accepted: the header's table and payload
description (45_decoder.md R200, R202), its tree if it has a symbol, and the flags (R220). -/
def HeaderLoaded (s : State) (h : Header) (t : State) : Prop :=
  t.freq = h.freq ∧ t.nsym.toNat = h.nsym ∧ t.origLen.toNat = h.orig ∧
  t.payAddr.toNat = (s.srcAddr.toNat + 13 + 5 * h.nsym) % 2 ^ 32 ∧
  t.payLen.toNat = s.srcLen.toNat - (13 + 5 * h.nsym) ∧ t.payFbb.toNat = h.fbb ∧
  (h.nsym ≠ 0 → (t.arena, t.root) = buildArena h.freq t.nsym s.draws) ∧
  (h.nsym = 0 → t.arena = s.arena ∧ t.root = s.root) ∧
  t.tableValid = true ∧ t.hdrValid = true ∧ t.treeValid = decide (h.nsym ≠ 0) ∧ t.codesValid = false

/-- t is s but for what DECODE's first two steps write, memory, RESULT_LEN and the completion step's fields. -/
def SameButDecoded (s t : State) : Prop :=
  t = { s with
    freq := t.freq, nsym := t.nsym, origLen := t.origLen
    payAddr := t.payAddr, payLen := t.payLen, payFbb := t.payFbb, arena := t.arena, root := t.root
    tableValid := t.tableValid, hdrValid := t.hdrValid, treeValid := t.treeValid, codesValid := t.codesValid
    mem := t.mem, resultLen := t.resultLen
    inflight := t.inflight, done := t.done, err := t.err, errCode := t.errCode, doneIp := t.doneIp
    draws := t.draws }

/-- The state DECODE_PAYLOAD starts from inside DECODE, after a header h was accepted (45_decoder.md R220). -/
def State.decodeStart (s : State) (h : Header) : State :=
  let s1 := s.loadHeader h
  if s1.nsym = 0 then s1 else s1.treeBuilt

end Sys2Proof.Machine
end

