-- ==== Sys2Proof/Certificates/Slice0/Obligations.lean ====
section
/-! DEFINITION. The statements for the provers. Each docstring names the rule of spec/ it formalises. The
model's own fields (`draws`, `inputs`, `seen`, `inflight.wait`, `inflight.raced`) appear only to say that they
change, or that nothing depends on them: log entries 1, 2, 6 and 9. -/

open Sys2Proof Sys2Proof.Machine

/-! ## Encoding -/

/-- 30_encoding.md R81: the opcode map, and the decoder matches the whole 32-bit word. -/
def Obligations.DecoderMatchesWholeWord : Prop :=
  (∀ (w : Word) (i : Instr), decodeWord w = .ok i ↔ w = i.opcode.setWidth 32) ∧
  Instr.opcode .clear = 0x01 ∧ Instr.opcode .count = 0x02 ∧ Instr.opcode .buildTree = 0x03 ∧
  Instr.opcode .assignCodes = 0x04 ∧ Instr.opcode .emitStream = 0x05 ∧ Instr.opcode .parseHeader = 0x06 ∧
  Instr.opcode .decodePayload = 0x07 ∧ Instr.opcode .encode = 0x08 ∧ Instr.opcode .decode = 0x09

/-- The words of opcode_table.json decode to their rows, and the decoder undoes the encoder (R81). -/
def Obligations.TableWordsDecode : Prop :=
  decodeTableWord 32 0x00000001 = some .clear ∧ decodeTableWord 32 0x00000003 = some .buildTree ∧
  decodeTableWord 32 0x00000004 = some .assignCodes ∧ decodeTableWord 32 0x00000005 = some .emitStream ∧
  decodeTableWord 32 0x00000006 = some .parseHeader ∧ decodeTableWord 32 0x00000009 = some .decode ∧
  ∀ i : Instr, i.wellFormed = true → decodeWord (encode i) = .ok i

/-- 30_encoding.md R82, 40_host_interface.md R115: an illegal word does nothing but complete with
ILLEGAL_COMMAND. That it does so at wait = 0 is the model's reading of "at once" (log entries 1 and 25). -/
def Obligations.IllegalWordCompletesWithError : Prop :=
  ∀ (s : State) (f : InFlight), s.inflight = some f → f.wait = 0 →
    (f.word.extractLsb' 8 24 ≠ 0 ∨ f.word.extractLsb' 0 8 = 0 ∨ 0x0A ≤ (f.word.extractLsb' 0 8).toNat) →
    step s = .next { s with
      inflight := none, done := true, err := true, errCode := .illegalCommand, doneIp := true,
      draws := s.draws + 1 }

/-! ## Steps -/

/-- 40_host_interface.md R115: the completion step performs the command that was accepted. The condition
`wait = 0` is the model's latency (log entry 1). -/
def Obligations.StepRunsDecodedCommand : Prop :=
  ∀ (s : State) (f : InFlight) (i : Instr), s.inflight = some f → f.wait = 0 → decodeWord f.word = .ok i →
    i.wellFormed = true → step s = exec i s

/-- 00_scope.md R5 and R6, 60_exceptions.md R250: while no completion step is due, one event of the outside
world is taken, and nothing happens where none is there (the model's interleaving, log entries 1 and 2). -/
def Obligations.StepTakesOneHostTurn : Prop :=
  (∀ s : State, s.inflight = none → s.inputs = [] → step s = .next s) ∧
  (∀ (s : State) (e : HostEvent) (rest : List HostEvent), s.inflight = none → s.inputs = e :: rest →
    step s = .next ({ s with inputs := rest }.event e)) ∧
  (∀ (s : State) (f : InFlight), s.inflight = some f → f.wait ≠ 0 → s.inputs = [] →
    step s = .next { s with inflight := some { f with wait := f.wait - 1 } }) ∧
  (∀ (s : State) (f : InFlight) (e : HostEvent) (rest : List HostEvent), s.inflight = some f → f.wait ≠ 0 →
    s.inputs = e :: rest →
    step s = .next ({ s with inputs := rest, inflight := some { f with wait := f.wait - 1 } }.event e))

/-- 20_memory.md R60, 60_exceptions.md R237: nothing stops the machine. -/
def Obligations.NoStepStops : Prop := ∀ s : State, ∃ t : State, step s = .next t

/-- 70_reset_and_hazards.md R269: a command in flight completes, at the step its latency names, unless reset
is asserted first. -/
def Obligations.AcceptedCommandCompletes : Prop :=
  ∀ (s : State) (f : InFlight), s.inflight = some f → (∀ e ∈ s.inputs.take f.wait, e ≠ .rstAssert) →
    ∃ t : State, Host.Core.run Sys2Proof.core (f.wait + 1) s = .next t ∧
      t.busy = false ∧ t.done = true ∧ t.doneIp = true ∧ t.lastOp = s.lastOp

/-! ## The register bus -/

/-- 40_host_interface.md R111: what a host write does, while BUSY = 1 and while BUSY = 0. The n and d at
acceptance are the model's own latency and draw counter (log entries 1 and 6). The last clause covers offsets
that are no multiple of 4 too, which R20 says do not exist (log entry 20). -/
def Obligations.RegisterWrites : Prop :=
  ∀ (s : State) (off : Byte) (v : Word), s.rst = false →
    (s.busy = true → off ∈ ([0x04, 0x14, 0x18, 0x1C, 0x20, 0x54] : List Byte) →
      s.busWrite off v = { s with wbusy := true }) ∧
    (s.busy = false →
      (off = 0x04 → ∃ n d, s.busWrite off v = { s.accept v n with draws := d }) ∧
      (off = 0x14 → s.busWrite off v = { s with srcAddr := v }) ∧
      (off = 0x18 → s.busWrite off v = { s with srcLen := v }) ∧
      (off = 0x1C → s.busWrite off v = { s with dstAddr := v }) ∧
      (off = 0x20 → s.busWrite off v = { s with dstCap := v }) ∧
      (off = 0x54 → s.busWrite off v = { s with tblIndex := v.extractLsb' 0 9 })) ∧
    (off = 0x0C → s.busWrite off v = { s with doneIe := v.getLsbD 0 }) ∧
    (off = 0x10 → v.getLsbD 0 = true → s.busWrite off v = { s with doneIp := false }) ∧
    (off = 0x10 → v.getLsbD 0 = false → s.busWrite off v = s) ∧
    (off ∉ ([0x04, 0x0C, 0x10, 0x14, 0x18, 0x1C, 0x20, 0x54] : List Byte) → s.busWrite off v = s)

/-- 40_host_interface.md R113: acceptance. The latency drawn and `draws` are the model's own (log entries 1
and 6). -/
def Obligations.CommandAccepted : Prop :=
  ∀ (s : State) (v : Word), s.busy = false → s.rst = false →
    s.busWrite 0x04 v = { s with
      inflight := some { word := v, wait := Config.latency s.draws, raced := false }
      done := false, err := false, errCode := .none, wbusy := false, lastOp := v.extractLsb' 0 8
      draws := s.draws + 1 }

/-- 40_host_interface.md R112: these registers read their current values while BUSY = 1, and no command writes
one of them but STATUS and INT_STATUS. -/
def Obligations.HostRegistersWhileBusy : Prop :=
  (∀ s : State, s.busRead 0x00 = 0x48554631 ∧ s.busRead 0x04 = 0 ∧ s.busRead 0x08 = s.statusWord ∧
    (s.busRead 0x0C = if s.doneIe then 1 else 0) ∧ (s.busRead 0x10 = if s.doneIp then 1 else 0) ∧
    s.busRead 0x14 = s.srcAddr ∧ s.busRead 0x18 = s.srcLen ∧ s.busRead 0x1C = s.dstAddr ∧
    s.busRead 0x20 = s.dstCap ∧ s.busRead 0x54 = s.tblIndex.setWidth 32) ∧
  (∀ (i : Instr) (s t : State), exec i s = .next t → SameHostSide s t)

/-- 40_host_interface.md R110 and R114: a read changes nothing of the core; while BUSY = 1 the result and
readback registers read a free draw. `seen` and `draws` are the model's own (log entries 2 and 6). -/
def Obligations.ReadsChangeNothing : Prop :=
  (∀ (s : State) (off : Byte),
    s.event (.read off) = { s with seen := s.seen ++ [.reg off (s.busRead off)], draws := s.draws + 1 }) ∧
  (∀ (s : State) (off : Byte), s.busy = true → off.toNat % 4 = 0 →
    (0x24 ≤ off.toNat ∧ off.toNat ≤ 0x50 ∨ 0x58 ≤ off.toNat ∧ off.toNat ≤ 0x8C) →
    s.busRead off = Config.draw 32 s.draws .busRead 0)

/-- 10_state.md R20, R30 to R38: the values the result and symbol readback registers read while idle; unused
offsets read 0. -/
def Obligations.RegisterMapReads : Prop :=
  ∀ s : State, s.busy = false →
    s.busRead 0x24 = s.resultLen ∧ s.busRead 0x28 = s.nsym.setWidth 32 ∧
    s.busRead 0x2C = s.origLen.extractLsb' 0 32 ∧ s.busRead 0x30 = s.origLen.extractLsb' 32 32 ∧
    s.busRead 0x34 = s.totalBits.extractLsb' 0 32 ∧ s.busRead 0x38 = s.totalBits.extractLsb' 32 32 ∧
    s.busRead 0x3C = s.finalBits.setWidth 32 ∧ s.busRead 0x40 = s.root.setWidth 32 ∧
    s.busRead 0x44 = BitVec.ofNat 32 s.arena.length ∧ s.busRead 0x48 = s.payAddr ∧
    s.busRead 0x4C = s.payLen ∧ s.busRead 0x50 = s.payFbb.setWidth 32 ∧
    s.busRead 0x58 = tget s.freq (s.tblIndex.extractLsb' 0 8) ∧
    s.busRead 0x5C = (tget s.codeLen (s.tblIndex.extractLsb' 0 8)).setWidth 32 ∧
    (∀ j : Fin 8, s.busRead (BitVec.ofNat 8 (0x60 + 4 * j.val)) =
      (tget s.codeBits (s.tblIndex.extractLsb' 0 8)).extractLsb' (32 * j.val) 32) ∧
    (∀ off : Byte, 0x90 ≤ off.toNat → s.busRead off = 0)

/-- 10_state.md R23: the fields of STATUS. -/
def Obligations.StatusWordFields : Prop :=
  ∀ s : State,
    s.statusWord.getLsbD 0 = s.busy ∧ s.statusWord.getLsbD 1 = s.done ∧ s.statusWord.getLsbD 2 = s.err ∧
    s.statusWord.getLsbD 3 = s.wbusy ∧ s.statusWord.extractLsb' 4 4 = 0 ∧
    s.statusWord.extractLsb' 8 8 = s.errCode.code ∧ s.statusWord.getLsbD 16 = s.tableValid ∧
    s.statusWord.getLsbD 17 = s.treeValid ∧ s.statusWord.getLsbD 18 = s.codesValid ∧
    s.statusWord.getLsbD 19 = s.hdrValid ∧ s.statusWord.extractLsb' 20 4 = 0 ∧
    s.statusWord.extractLsb' 24 8 = s.lastOp

/-- 10_state.md R39: the node readback. -/
def Obligations.NodeReadback : Prop :=
  ∀ s : State, s.busy = false →
    (s.arena.length ≤ s.tblIndex.toNat →
      s.busRead 0x80 = 0 ∧ s.busRead 0x84 = 0 ∧ s.busRead 0x88 = 0 ∧ s.busRead 0x8C = 0) ∧
    (∀ n, s.arena[s.tblIndex.toNat]? = some n →
      (s.busRead 0x80).getLsbD 31 = true ∧ (s.busRead 0x80).extractLsb' 8 21 = 0 ∧
      (s.busRead 0x80).extractLsb' 0 8 = n.minSym ∧
      (s.busRead 0x84).extractLsb' 25 7 = 0 ∧ (s.busRead 0x84).extractLsb' 9 7 = 0 ∧
      s.busRead 0x88 = n.weight.extractLsb' 0 32 ∧ s.busRead 0x8C = n.weight.extractLsb' 32 32 ∧
      (∀ b w, n = .leaf b w →
        (s.busRead 0x80).getLsbD 30 = false ∧ (s.busRead 0x80).getLsbD 29 = false ∧
        (s.busRead 0x84).extractLsb' 16 9 = 0x1FF ∧ (s.busRead 0x84).extractLsb' 0 9 = 0x1FF) ∧
      (∀ w c l r, n = .fork w c l r →
        (s.busRead 0x80).getLsbD 30 = true ∧ ((s.busRead 0x80).getLsbD 29 = true ↔ r ≠ 0x1FF) ∧
        (s.busRead 0x84).extractLsb' 16 9 = r ∧ (s.busRead 0x84).extractLsb' 0 9 = l))

/-! ## The interrupt and reset -/

/-- 60_exceptions.md R240: the level of `irq`, and the completion of every command word, legal or not,
successful or not, raises it where it is enabled. -/
def Obligations.InterruptOutput : Prop :=
  (∀ s : State, s.irq = true ↔ s.doneIe = true ∧ s.doneIp = true) ∧
  (∀ (w : Word) (s t : State), runWord w s = .next t → t.irq = s.doneIe)

/-- 60_exceptions.md R241: every completion step sets DONE_IP; only a write of 1 to INT_STATUS bit 0, or reset,
clears it, and each does; DONE_IE masks `irq` without changing DONE_IP. -/
def Obligations.DoneIpClearedOnlyByHost : Prop :=
  (∀ s t : State, step s = .next t → s.doneIp = true → t.doneIp = false →
    ∃ e rest, s.inputs = e :: rest ∧
      (e = .rstAssert ∨ ∃ v : Word, e = .write 0x10 v ∧ v.getLsbD 0 = true)) ∧
  (∀ (w : Word) (s t : State), runWord w s = .next t → t.doneIp = true) ∧
  (∀ s : State, s.assertReset.doneIp = false) ∧
  (∀ (s : State) (v : Word), s.rst = false →
    (v.getLsbD 0 = true → (s.busWrite 0x10 v).doneIp = false) ∧
    (s.busWrite 0x0C v).doneIp = s.doneIp ∧
    (s.doneIp = true → v.getLsbD 0 = true → (s.busWrite 0x0C v).irq = true) ∧
    (v.getLsbD 0 = false → (s.busWrite 0x0C v).irq = false))

/-- 70_reset_and_hazards.md R260: every register after reset, whatever memory and tables it finds. -/
def Obligations.ResetValues : Prop :=
  ∀ (m : Memory) (f : Vector Word 256) (l : Vector Byte 256) (c : Vector CodeWord 256),
    let s := State.resetWith m f l c
    s.busRead 0x00 = 0x48554631 ∧ s.statusWord = 0 ∧ s.busRead 0x0C = 0 ∧ s.busRead 0x10 = 0 ∧
    s.irq = false ∧ s.srcAddr = 0 ∧ s.srcLen = 0 ∧ s.dstAddr = 0 ∧ s.dstCap = 0 ∧ s.resultLen = 0 ∧
    s.nsym = 0 ∧ s.origLen = 0 ∧ s.totalBits = 0 ∧ s.finalBits = 0 ∧ s.root = 0x1FF ∧ s.arena = [] ∧
    s.busRead 0x80 = 0 ∧ s.busRead 0x84 = 0 ∧ s.busRead 0x88 = 0 ∧ s.busRead 0x8C = 0 ∧
    s.payAddr = 0 ∧ s.payLen = 0 ∧ s.payFbb = 0 ∧ s.tblIndex = 0 ∧ s.freq = f ∧ s.codeLen = l ∧
    s.codeBits = c ∧ s.inflight = none ∧ s.mem = m

/-- 70_reset_and_hazards.md R261: asserting reset aborts the command in flight; every register takes its reset
value, and memory changes at most in the aborted command's write window. -/
def Obligations.ResetAbortsCommand : Prop :=
  ∀ s : State,
    s.assertReset.busy = false ∧ s.assertReset.doneIp = false ∧
    (∃ m f l c, s.assertReset =
      { State.resetWith m f l c with
        rst := true, inputs := s.inputs, seen := s.seen, draws := s.assertReset.draws }) ∧
    (∀ a : Nat, s.inWriteWindow a = false → s.assertReset.mem.read a = s.mem.read a)

/-- 70_reset_and_hazards.md R262: while reset is asserted no command is accepted. That the other writes do
nothing either is the model's reading (log entry 12). -/
def Obligations.ResetHeldIgnoresWrites : Prop :=
  ∀ (s : State) (off : Byte) (v : Word), s.rst = true → s.event (.write off v) = s

/-! ## All commands -/

/-- 40_host_interface.md R115, 60_exceptions.md R232: what every completion step writes. -/
def Obligations.CompletionStepWrites : Prop :=
  ∀ (i : Instr) (s t : State), s.raced = false → exec i s = .next t →
    t.busy = false ∧ t.done = true ∧ t.doneIp = true ∧ (t.err = true ↔ t.errCode ≠ .none)

/-- 60_exceptions.md R230: the values of ERR_CODE. -/
def Obligations.ErrorCodeValues : Prop :=
  (∀ e : ErrCode, e.code.getLsbD 4 = true ↔ 0x10 ≤ e.code.toNat ∧ e.code.toNat ≤ 0x1A) ∧
  (∀ e e' : ErrCode, e.code = e'.code → e = e') ∧
  ErrCode.code .none = 0x00 ∧ ErrCode.code .illegalCommand = 0x01 ∧ ErrCode.code .sequence = 0x02 ∧
  ErrCode.code .addressRange = 0x03 ∧ ErrCode.code .overlap = 0x04 ∧ ErrCode.code .emptyTable = 0x05 ∧
  ErrCode.code .inputMismatch = 0x06 ∧ ErrCode.code .outputOverflow = 0x07 ∧
  ErrCode.code .corruptTruncated = 0x10 ∧ ErrCode.code .corruptSymbolCount = 0x11 ∧
  ErrCode.code .corruptZeroFrequency = 0x12 ∧ ErrCode.code .corruptDuplicateSymbol = 0x13 ∧
  ErrCode.code .corruptSumMismatch = 0x14 ∧ ErrCode.code .corruptFinalBits = 0x15 ∧
  ErrCode.code .corruptPadding = 0x16 ∧ ErrCode.code .corruptEndOfStream = 0x17 ∧
  ErrCode.code .corruptMissingChild = 0x18 ∧ ErrCode.code .corruptTrailingBits = 0x19 ∧
  ErrCode.code .corruptHistogram = 0x1A

/-- 60_exceptions.md R230: which command raises which code, raced or not (R265). -/
def Obligations.ErrorCodesPerCommand : Prop :=
  ∀ (i : Instr) (s t : State), exec i s = .next t → t.errCode = .none ∨ t.errCode ∈ errsOf i

/-- 60_exceptions.md R233: RESULT_LEN and the destination window after an error of an emitting command. -/
def Obligations.OutputAfterError : Prop :=
  ∀ (i : Instr) (s t : State), s.raced = false → emits i = true → exec i s = .next t → t.errCode ≠ .none →
    t.resultLen = 0 ∧ SameOutside s.dstWindow s t ∧
    (t.errCode ∈ ([.sequence, .addressRange, .overlap, .outputOverflow] : List ErrCode) →
      ∀ a : Nat, t.mem.read a = s.mem.read a)

/-- 20_memory.md R65: no command writes a byte outside its destination window, on success, on error or raced,
and the five commands with no such window write no byte at all. -/
def Obligations.WritesOnlyDestinationWindow : Prop :=
  ∀ (i : Instr) (s t : State), exec i s = .next t →
    SameOutside s.dstWindow s t ∧ (emits i = false → ∀ a : Nat, t.mem.read a = s.mem.read a)

/-- 20_memory.md R65: a command reads only its read windows. Two memories that agree there give the same
registers, tables, flags and errors, and the same value in every byte the command writes. -/
def Obligations.ReadsOnlyItsWindows : Prop :=
  ∀ (i : Instr) (s : State) (m : Memory), s.raced = false → s.mem.wf = true → m.wf = true →
    (∀ w ∈ readWindows i s, ∀ a : Nat, w.contains a = true → m.read a = s.mem.read a) →
    ∃ t u : State, exec i s = .next t ∧ exec i { s with mem := m } = .next u ∧
      u = { t with mem := u.mem } ∧
      (∀ a : Nat, t.mem.read a = u.mem.read a ∨
        (t.mem.read a = s.mem.read a ∧ u.mem.read a = m.read a))

/-! ## CLEAR and COUNT -/

/-- 41_symbol_table.md R130, R131: CLEAR always completes, empties every table and result register, clears the
flags, and changes nothing else. -/
def Obligations.ClearEmptiesTables : Prop :=
  ∀ s : State, s.raced = false → ∃ t : State, exec .clear s = .next t ∧
    (∀ b, tget t.freq b = 0 ∧ tget t.codeLen b = 0 ∧ tget t.codeBits b = 0) ∧
    t = { s with
      freq := t.freq, codeLen := t.codeLen, codeBits := t.codeBits, arena := [], root := 0x1FF, nsym := 0
      origLen := 0, totalBits := 0, finalBits := 0, payAddr := 0, payLen := 0, payFbb := 0, resultLen := 0
      tableValid := false, treeValid := false, codesValid := false, hdrValid := false
      inflight := none, done := true, err := false, errCode := .none, doneIp := true, draws := t.draws }

/-- 41_symbol_table.md R132: COUNT of an in-range window completes with its histogram, and changes nothing
else. -/
def Obligations.CountCompletes : Prop :=
  ∀ s : State, s.raced = false → s.srcAddr.toNat + s.srcLen.toNat ≤ 2 ^ 32 →
    ∃ t : State, exec .count s = .next t ∧
      (∀ b, (tget t.freq b).toNat =
        (List.range s.srcLen.toNat).countP fun i => s.mem.read (s.srcAddr.toNat + i) == b) ∧
      t.nsym.toNat = (allSyms.filter fun b => tget t.freq b ≠ 0).length ∧
      t = { s with
        freq := t.freq, nsym := t.nsym, origLen := s.srcLen.setWidth 64
        tableValid := true, treeValid := false, codesValid := false, hdrValid := false
        inflight := none, done := true, err := false, errCode := .none, doneIp := true, draws := t.draws }

/-- 41_symbol_table.md R133: no count overflows, and ORIG_LEN = Σ f[s] = SRC_LEN. -/
def Obligations.CountsSumToLength : Prop :=
  ∀ s t : State, s.raced = false → s.srcWindow.inRange = true → exec .count s = .next t →
    ((allSyms.map fun b => (tget t.freq b).toNat).sum = s.srcLen.toNat) ∧ t.origLen.toNat = s.srcLen.toNat ∧
    (∀ b, (tget t.freq b).toNat ≤ s.srcLen.toNat)

/-! ## Errors found before any effect -/

/-- 60_exceptions.md R231: on these errors of COUNT, BUILD_TREE, ASSIGN_CODES and PARSE_HEADER, in the order
of R235, the only changes are STATUS and DONE_IP (and `draws`, log entry 6). -/
def Obligations.EarlyErrorsChangeOnlyStatus : Prop :=
  ∀ s : State, s.raced = false →
    let failed := fun e : ErrCode => { s with
      inflight := none, done := true, err := true, errCode := e, doneIp := true, draws := s.draws + 1 }
    (2 ^ 32 < s.srcAddr.toNat + s.srcLen.toNat → exec .count s = .next (failed .addressRange)) ∧
    (2 ^ 32 < s.srcAddr.toNat + s.srcLen.toNat → exec .parseHeader s = .next (failed .addressRange)) ∧
    (s.tableValid = false → exec .buildTree s = .next (failed .sequence)) ∧
    (s.tableValid = true → s.nsym = 0 → exec .buildTree s = .next (failed .emptyTable)) ∧
    (s.treeValid = false → exec .assignCodes s = .next (failed .sequence))

/-- 60_exceptions.md R235, R231, R233: the early errors of EMIT_STREAM and DECODE_PAYLOAD, in check order: the
only changes are STATUS, DONE_IP and RESULT_LEN = 0 (and `draws`). That a payload window out of range (20_memory.md
R64) is found with the destination window's check is the model's reading (log entry 27). -/
def Obligations.EarlyErrorsOfEmitters : Prop :=
  ∀ s : State, s.raced = false →
    let failed := fun e : ErrCode => { s with
      inflight := none, done := true, err := true, errCode := e, doneIp := true, resultLen := 0
      draws := s.draws + 1 }
    let encodable := s.codesValid = true ∨ (s.tableValid = true ∧ s.nsym = 0)
    let inRange := s.srcAddr.toNat + s.srcLen.toNat ≤ 2 ^ 32 ∧ s.dstAddr.toNat + s.dstCap.toNat ≤ 2 ^ 32
    let decodable := s.hdrValid = true ∧ (s.nsym = 0 ∨ s.treeValid = true)
    let payInRange := s.payAddr.toNat + s.payLen.toNat ≤ 2 ^ 32 ∧ s.dstAddr.toNat + s.dstCap.toNat ≤ 2 ^ 32
    (¬ encodable → exec .emitStream s = .next (failed .sequence)) ∧
    (encodable → ¬ inRange → exec .emitStream s = .next (failed .addressRange)) ∧
    (encodable → inRange → s.srcWindow.overlaps s.dstWindow = true →
      exec .emitStream s = .next (failed .overlap)) ∧
    (encodable → inRange → s.srcWindow.overlaps s.dstWindow = false → s.dstCap.toNat < s.emitSize →
      exec .emitStream s = .next (failed .outputOverflow)) ∧
    (¬ decodable → exec .decodePayload s = .next (failed .sequence)) ∧
    (decodable → ¬ payInRange → exec .decodePayload s = .next (failed .addressRange)) ∧
    (decodable → payInRange → s.payWindow.overlaps s.dstWindow = true →
      exec .decodePayload s = .next (failed .overlap)) ∧
    (decodable → payInRange → s.payWindow.overlaps s.dstWindow = false →
      s.dstCap.toNat < s.origLen.toNat → exec .decodePayload s = .next (failed .outputOverflow))

/-! ## BUILD_TREE -/

/-- 42_tree_builder.md R153, R155, R157: BUILD_TREE of a valid table completes and changes nothing but the
arena, ROOT and two flags; its arena is the one-symbol tree, or what merging the two smallest keys gives. -/
def Obligations.BuildTreeCompletes : Prop :=
  ∀ s : State, s.raced = false → s.tableValid = true → s.nsym ≠ 0 →
    ∃ t : State, exec .buildTree s = .next t ∧
      t = { s with
        arena := t.arena, root := t.root, treeValid := true, codesValid := false
        inflight := none, done := true, err := false, errCode := .none, doneIp := true, draws := t.draws } ∧
      (Counts s.freq s.nsym → s.nsym = 1 → ∃ b, present s.freq = [b] ∧ t.root = 1 ∧
        t.arena = [.leaf b ((tget s.freq b).setWidth 64), .fork ((tget s.freq b).setWidth 64) [b] 0 0x1FF]) ∧
      (Counts s.freq s.nsym → s.nsym ≠ 1 →
        Merges ((present s.freq).map fun b => .leaf b ((tget s.freq b).setWidth 64))
          (List.range s.nsym.toNat) t.arena t.root.toNat)

/-- 10_state.md R44, 42_tree_builder.md R154: the arena invariants after a successful BUILD_TREE, and its root's
content. -/
def Obligations.BuiltTreeInvariants : Prop :=
  ∀ s t : State, s.raced = false → s.tableValid = true → s.nsym ≠ 0 → Counts s.freq s.nsym →
    exec .buildTree s = .next t → TreeOk t.freq t.arena t.root

/-- 42_tree_builder.md R158 and R153: the numbering of the arena, NODE_COUNT and ROOT. -/
def Obligations.BuiltTreeNumbering : Prop :=
  ∀ s t : State, s.raced = false → s.tableValid = true → s.nsym ≠ 0 → Counts s.freq s.nsym →
    exec .buildTree s = .next t →
    (∀ i < s.nsym.toNat, ∃ b, (present s.freq)[i]? = some b ∧
      t.arena[i]? = some (.leaf b ((tget s.freq b).setWidth 64))) ∧
    (∀ i, s.nsym.toNat ≤ i → i < t.arena.length → ∃ w c l r, t.arena[i]? = some (.fork w c l r)) ∧
    (s.nsym = 1 → t.arena.length = 2 ∧ t.root = 1) ∧
    (s.nsym ≠ 1 → t.arena.length = 2 * s.nsym.toNat - 1 ∧ t.root.toNat = 2 * s.nsym.toNat - 2)

/-- 42_tree_builder.md R159: BUILD_TREE's result depends only on the FREQ table. -/
def Obligations.TreeDependsOnlyOnTable : Prop :=
  ∀ s s' t t' : State, s.raced = false → s'.raced = false → s.tableValid = true → s'.tableValid = true →
    s.nsym ≠ 0 → Counts s.freq s.nsym → Counts s'.freq s'.nsym → s.freq = s'.freq →
    exec .buildTree s = .next t → exec .buildTree s' = .next t' → t.arena = t'.arena ∧ t.root = t'.root

/-! ## ASSIGN_CODES -/

/-- 43_code_assigner.md R171: ASSIGN_CODES of a valid tree completes and changes nothing but the code tables,
TOTAL_BITS, FINAL_BITS and CODES_VALID; walking a symbol's code from ROOT reaches its leaf. -/
def Obligations.AssignCodesCompletes : Prop :=
  ∀ s : State, s.raced = false → s.treeValid = true →
    ∃ t : State, exec .assignCodes s = .next t ∧
      t = { s with
        codeLen := t.codeLen, codeBits := t.codeBits, totalBits := t.totalBits, finalBits := t.finalBits
        codesValid := true
        inflight := none, done := true, err := false, errCode := .none, doneIp := true, draws := t.draws } ∧
      t.totalBits.toNat = (allSyms.map fun b => (tget s.freq b).toNat * (tget t.codeLen b).toNat).sum ∧
      (t.totalBits = 0 → t.finalBits = 0) ∧
      (t.totalBits ≠ 0 → t.totalBits.toNat % 8 = 0 → t.finalBits = 8) ∧
      (t.totalBits.toNat % 8 ≠ 0 → t.finalBits.toNat = t.totalBits.toNat % 8) ∧
      (s.FlagsTruthful → ∀ b, tget s.freq b ≠ 0 → ∀ rest : List Bool,
        walkSymbol s.arena s.draws s.root (codeBitList (tget t.codeLen b) (tget t.codeBits b) ++ rest) =
          .ok (b, rest)) ∧
      (s.FlagsTruthful → ∀ b, tget s.freq b = 0 → tget t.codeLen b = 0 ∧ tget t.codeBits b = 0)

/-- 43_code_assigner.md R172: lengths 1 to 255, prefix-free, CODE_BITS[s] < 2^CODE_LEN[s]. -/
def Obligations.CodesArePrefixFree : Prop :=
  ∀ s t : State, s.raced = false → s.treeValid = true → s.FlagsTruthful → exec .assignCodes s = .next t →
    (∀ b, tget s.freq b ≠ 0 → 1 ≤ (tget t.codeLen b).toNat ∧ (tget t.codeLen b).toNat ≤ 255) ∧
    (∀ b, (tget t.codeBits b).toNat < 2 ^ (tget t.codeLen b).toNat) ∧
    (∀ b b', tget s.freq b ≠ 0 → tget s.freq b' ≠ 0 → b ≠ b' →
      ¬ codeBitList (tget t.codeLen b) (tget t.codeBits b) <+:
        codeBitList (tget t.codeLen b') (tget t.codeBits b'))

/-- 43_code_assigner.md R173: TOTAL_BITS is the payload length in bits of any input whose histogram is FREQ. -/
def Obligations.PayloadLengthIsTotalBits : Prop :=
  ∀ (bs : List Byte) (l : Vector Byte 256) (c : Vector CodeWord 256), bs.length < 2 ^ 32 →
    (encodeBits l c bs).length = codedBits (histogram bs) l ∧ codedBits (histogram bs) l < 2 ^ 64

/-! ## EMIT_STREAM -/

/-- 44_encoder.md R183, R185, R187: EMIT_STREAM completes when no error applies, writes exactly the stream, and
changes nothing else. -/
def Obligations.EmitStreamCompletes : Prop :=
  ∀ s : State, s.raced = false → s.mem.wf = true → s.FlagsTruthful →
    (s.codesValid = true ∨ (s.tableValid = true ∧ s.nsym = 0)) →
    s.srcAddr.toNat + s.srcLen.toNat ≤ 2 ^ 32 → s.dstAddr.toNat + s.dstCap.toNat ≤ 2 ^ 32 →
    s.srcWindow.overlaps s.dstWindow = false → s.emitSize ≤ s.dstCap.toNat →
    histogram s.srcBytes = s.freq →
    ∃ t : State, exec .emitStream s = .next t ∧
      t.mem.bytes s.dstAddr.toNat s.emitSize =
        headerBytes s.freq s.nsym.toNat s.origLen.toNat s.emitFinalBits ++
          packBits (encodeBits s.codeLen s.codeBits s.srcBytes) ∧
      (∀ a : Nat, a < s.dstAddr.toNat ∨ s.dstAddr.toNat + s.emitSize ≤ a → t.mem.read a = s.mem.read a) ∧
      t.resultLen.toNat = s.emitSize ∧
      t = { s with
        mem := t.mem, resultLen := t.resultLen
        totalBits := if s.tableValid = true ∧ s.nsym = 0 then 0 else s.totalBits
        finalBits := if s.tableValid = true ∧ s.nsym = 0 then 0 else s.finalBits
        inflight := none, done := true, err := false, errCode := .none, doneIp := true, draws := t.draws }

/-- 44_encoder.md R183, R185, R187: whatever the tables, truthful or not, an EMIT_STREAM that passes its checks
completes, writes no byte outside [DST_ADDR, DST_ADDR + size), puts NSYM, ORIG_LEN and finalByteBits at their
offsets, changes nothing else, and done twice writes the same bytes. Which bytes of the rest a table left by a race
gives is log entry 28. -/
def Obligations.EmitStreamWritesItsSize : Prop :=
  ∀ s : State, s.raced = false → s.mem.wf = true →
    (s.codesValid = true ∨ (s.tableValid = true ∧ s.nsym = 0)) →
    s.srcAddr.toNat + s.srcLen.toNat ≤ 2 ^ 32 → s.dstAddr.toNat + s.dstCap.toNat ≤ 2 ^ 32 →
    s.srcWindow.overlaps s.dstWindow = false → s.emitSize ≤ s.dstCap.toNat →
    histogram s.srcBytes = s.freq →
    ∃ t : State, exec .emitStream s = .next t ∧
      (∀ a : Nat, a < s.dstAddr.toNat ∨ s.dstAddr.toNat + s.emitSize ≤ a → t.mem.read a = s.mem.read a) ∧
      t.mem.beRead s.dstAddr.toNat 4 = s.nsym.toNat ∧
      t.mem.beRead (s.dstAddr.toNat + 4) 8 = s.origLen.toNat ∧
      (t.mem.read (s.dstAddr.toNat + 12 + 5 * s.nsym.toNat)).toNat = s.emitFinalBits ∧
      t.resultLen.toNat = s.emitSize ∧
      t = { s with
        mem := t.mem, resultLen := t.resultLen
        totalBits := if s.tableValid = true ∧ s.nsym = 0 then 0 else s.totalBits
        finalBits := if s.tableValid = true ∧ s.nsym = 0 then 0 else s.finalBits
        inflight := none, done := true, err := false, errCode := .none, doneIp := true, draws := t.draws } ∧
      ∃ u : State, exec .emitStream t = .next u ∧ u.errCode = .none ∧
        ∀ a : Nat, u.mem.read a = t.mem.read a

/-- 44_encoder.md R188: INPUT_MISMATCH changes no byte outside the destination window, and nothing but STATUS
and RESULT_LEN beside it. -/
def Obligations.EmitStreamMismatch : Prop :=
  ∀ s : State, s.raced = false →
    (s.codesValid = true ∨ (s.tableValid = true ∧ s.nsym = 0)) →
    s.srcAddr.toNat + s.srcLen.toNat ≤ 2 ^ 32 → s.dstAddr.toNat + s.dstCap.toNat ≤ 2 ^ 32 →
    s.srcWindow.overlaps s.dstWindow = false → s.emitSize ≤ s.dstCap.toNat →
    histogram s.srcBytes ≠ s.freq →
    ∃ t : State, exec .emitStream s = .next t ∧ SameOutside s.dstWindow s t ∧
      t = { s with
        mem := t.mem, resultLen := 0
        inflight := none, done := true, err := true, errCode := .inputMismatch, doneIp := true
        draws := t.draws }

/-- 30_encoding.md R93: the payload is the concatenation of the codes, payload bit k is bit 7 - (k mod 8) of
byte k div 8, and the final byte is padded with zeros. -/
def Obligations.PayloadBitOrder : Prop :=
  (∀ (l : Vector Byte 256) (c : Vector CodeWord 256) (bs : List Byte) (b : Byte),
    encodeBits l c (bs ++ [b]) = encodeBits l c bs ++ codeBitList (tget l b) (tget c b)) ∧
  (∀ (l : Vector Byte 256) (c : Vector CodeWord 256), encodeBits l c [] = []) ∧
  (∀ bits : List Bool, (packBits bits).length = ceil8 bits.length ∧
    ∀ k < 8 * ceil8 bits.length,
      ((packBits bits).getD (k / 8) 0).getLsbD (7 - k % 8) = bits.getD k false)

/-! ## PARSE_HEADER -/

/-- 45_decoder.md R200, R206: PARSE_HEADER of a well-formed header completes, loads its table and the payload
description, and changes nothing else. -/
def Obligations.ParseHeaderCompletes : Prop :=
  ∀ s : State, s.raced = false → s.srcAddr.toNat + s.srcLen.toNat ≤ 2 ^ 32 →
    HeaderWellFormed s.mem s.srcAddr.toNat s.srcLen.toNat →
    let a := s.srcAddr.toNat
    let n := s.mem.beRead a 4
    ∃ t : State, exec .parseHeader s = .next t ∧
      (∀ i < n, (tget t.freq (entrySym s.mem a i)).toNat = entryFreq s.mem a i) ∧
      (∀ b, (∀ i < n, entrySym s.mem a i ≠ b) → tget t.freq b = 0) ∧
      t.nsym.toNat = n ∧ t.origLen.toNat = s.mem.beRead (a + 4) 8 ∧
      t.payAddr.toNat = (a + 13 + 5 * n) % 2 ^ 32 ∧ t.payLen.toNat = s.srcLen.toNat - (13 + 5 * n) ∧
      t.payFbb.toNat = (s.mem.read (a + 12 + 5 * n)).toNat ∧
      t = { s with
        freq := t.freq, nsym := t.nsym, origLen := t.origLen
        payAddr := t.payAddr, payLen := t.payLen, payFbb := t.payFbb
        tableValid := true, hdrValid := true, treeValid := false, codesValid := false
        inflight := none, done := true, err := false, errCode := .none, doneIp := true, draws := t.draws }

/-- 30_encoding.md R92, R94: PARSE_HEADER accepts exactly the streams whose header is well formed. -/
def Obligations.AcceptsExactlyWellFormedHeaders : Prop :=
  ∀ (m : Memory) (a len : Nat), a + len ≤ 2 ^ 32 →
    ((∃ h, parseHeader m a len = .ok h) ↔ HeaderWellFormed m a len)

/-- 45_decoder.md R207: a CORRUPT_* error clears the flags and leaves everything but FREQ, NSYM, ORIG_LEN and
PAY_* as it was. -/
def Obligations.ParseHeaderCorrupt : Prop :=
  ∀ s : State, s.raced = false → s.srcAddr.toNat + s.srcLen.toNat ≤ 2 ^ 32 →
    ¬ HeaderWellFormed s.mem s.srcAddr.toNat s.srcLen.toNat →
    ∃ t : State, exec .parseHeader s = .next t ∧ t.errCode.isCorrupt = true ∧
      t = { s with
        freq := t.freq, nsym := t.nsym, origLen := t.origLen
        payAddr := t.payAddr, payLen := t.payLen, payFbb := t.payFbb
        tableValid := false, hdrValid := false, treeValid := false, codesValid := false
        inflight := none, done := true, err := true, errCode := t.errCode, doneIp := true, draws := t.draws }

/-- 60_exceptions.md R235, 45_decoder.md R203 to R205: the header's checks, in order, and when each raises. -/
def Obligations.HeaderCheckOrder : Prop :=
  ∀ (m : Memory) (a len : Nat),
    (len < 4 → parseHeader m a len = .error .corruptTruncated) ∧
    (4 ≤ len → 256 < m.beRead a 4 → parseHeader m a len = .error .corruptSymbolCount) ∧
    (4 ≤ len → m.beRead a 4 ≤ 256 → len < 13 + 5 * m.beRead a 4 →
      parseHeader m a len = .error .corruptTruncated) ∧
    (4 ≤ len → m.beRead a 4 ≤ 256 → 13 + 5 * m.beRead a 4 ≤ len →
      ∀ i < m.beRead a 4, (∀ j < i, entryFreq m a j ≠ 0) →
      (∀ j < i, ∀ k < i, entrySym m a j = entrySym m a k → j = k) →
      (entryFreq m a i = 0 → parseHeader m a len = .error .corruptZeroFrequency) ∧
      (entryFreq m a i ≠ 0 → (∃ j < i, entrySym m a j = entrySym m a i) →
        parseHeader m a len = .error .corruptDuplicateSymbol)) ∧
    (4 ≤ len → m.beRead a 4 ≤ 256 → 13 + 5 * m.beRead a 4 ≤ len →
      (∀ i < m.beRead a 4, entryFreq m a i ≠ 0) →
      (∀ i < m.beRead a 4, ∀ j < m.beRead a 4, entrySym m a i = entrySym m a j → i = j) →
      let sum := ((List.range (m.beRead a 4)).map (entryFreq m a)).sum
      let p := len - (13 + 5 * m.beRead a 4)
      let fbb := (m.read (a + 12 + 5 * m.beRead a 4)).toNat
      let badFbb := (p = 0 ∧ fbb ≠ 0) ∨ (0 < p ∧ (fbb = 0 ∨ 8 < fbb))
      (sum ≠ m.beRead (a + 4) 8 → parseHeader m a len = .error .corruptSumMismatch) ∧
      (sum = m.beRead (a + 4) 8 → badFbb → parseHeader m a len = .error .corruptFinalBits) ∧
      (sum = m.beRead (a + 4) 8 → ¬ badFbb → 0 < p →
        (∃ k < 8 - fbb, (m.read (a + len - 1)).getLsbD k = true) →
        parseHeader m a len = .error .corruptPadding))

/-- 45_decoder.md R201: PARSE_HEADER reads only bytes inside the source window. -/
def Obligations.ParseHeaderReadsInsideWindow : Prop :=
  ∀ (m m' : Memory) (a len : Nat), (∀ x, a ≤ x → x < a + len → m.read x = m'.read x) →
    parseHeader m a len = parseHeader m' a len

/-- 45_decoder.md R206, 44_encoder.md R185: parsing an encoder's header gives its table back. -/
def Obligations.HeaderParsesBack : Prop :=
  ∀ (m : Memory) (a fbb : Nat) (freq : Vector Word 256) (payload : List Byte), m.wf = true →
    finalByteBitsLegal payload.length fbb = true →
    (∀ k < 8 - fbb, (payload.getLastD 0).getLsbD k = false) →
    let stream := headerBytes freq (present freq).length (totalCount freq) fbb ++ payload
    a + stream.length ≤ 2 ^ 32 →
    parseHeader (m.writeBytes a stream) a stream.length =
      .ok { freq := freq, nsym := (present freq).length, orig := totalCount freq, fbb := fbb }

/-! ## DECODE_PAYLOAD -/

/-- 45_decoder.md R210, R213, R217: DECODE_PAYLOAD of a payload its tree decodes completes with ORIG_LEN
symbols whose counts are FREQ, and changes nothing else. -/
def Obligations.DecodePayloadCompletes : Prop :=
  ∀ (s : State) (out : List Byte), s.raced = false → s.mem.wf = true → s.hdrValid = true →
    (s.nsym = 0 ∨ s.treeValid = true) → s.payAddr.toNat + s.payLen.toNat ≤ 2 ^ 32 →
    s.dstAddr.toNat + s.dstCap.toNat ≤ 2 ^ 32 →
    s.payWindow.overlaps s.dstWindow = false → s.origLen.toNat ≤ s.dstCap.toNat →
    walkSymbols s.arena s.draws s.root s.origLen.toNat s.payloadBits = .ok (out, []) →
    histogram out = s.freq →
    ∃ t : State, exec .decodePayload s = .next t ∧ out.length = s.origLen.toNat ∧
      t.mem.bytes s.dstAddr.toNat out.length = out ∧
      (∀ a : Nat, a < s.dstAddr.toNat ∨ s.dstAddr.toNat + out.length ≤ a → t.mem.read a = s.mem.read a) ∧
      t.resultLen.toNat = s.origLen.toNat ∧
      t = { s with
        mem := t.mem, resultLen := t.resultLen
        inflight := none, done := true, err := false, errCode := .none, doneIp := true, draws := t.draws }

/-- 45_decoder.md R216, R217, R218: what the walk's end can be, and what a CORRUPT_* error leaves. -/
def Obligations.DecodePayloadCorrupt : Prop :=
  ∀ s : State, s.raced = false → s.hdrValid = true → (s.nsym = 0 ∨ s.treeValid = true) →
    s.payAddr.toNat + s.payLen.toNat ≤ 2 ^ 32 → s.dstAddr.toNat + s.dstCap.toNat ≤ 2 ^ 32 → s.payWindow.overlaps s.dstWindow = false →
    s.origLen.toNat ≤ s.dstCap.toNat →
    let walk := walkSymbols s.arena s.draws s.root s.origLen.toNat s.payloadBits
    let corrupt := fun e : ErrCode => ∃ t : State, exec .decodePayload s = .next t ∧
      SameOutside s.dstWindow s t ∧
      t = { s with
        mem := t.mem, resultLen := 0
        inflight := none, done := true, err := true, errCode := e, doneIp := true, draws := t.draws }
    (∀ e, walk = .error e → (e = .corruptEndOfStream ∨ e = .corruptMissingChild) ∧ corrupt e) ∧
    (∀ out rest, walk = .ok (out, rest) → rest ≠ [] → corrupt .corruptTrailingBits) ∧
    (∀ out, walk = .ok (out, []) → histogram out ≠ s.freq → corrupt .corruptHistogram)

/-- 45_decoder.md R215: the walk at the one-child root. -/
def Obligations.OneSymbolWalk : Prop :=
  ∀ (b : Byte) (w : DWord) (seed : Nat) (bits : List Bool),
    let arena : List Node := [.leaf b w, .fork w [b] 0 0x1FF]
    walkSymbol arena seed 1 (false :: bits) = .ok (b, bits) ∧
    walkSymbol arena seed 1 (true :: bits) = .error .corruptMissingChild ∧
    walkSymbol arena seed 1 [] = .error .corruptEndOfStream

/-! ## ENCODE and DECODE -/

/-- 44_encoder.md R190: ENCODE completes when no error applies, with the stream, the tables and the flags its
steps give, and changes nothing else. -/
def Obligations.EncodeCompletes : Prop :=
  ∀ s : State, s.raced = false → s.mem.wf = true →
    s.srcAddr.toNat + s.srcLen.toNat ≤ 2 ^ 32 → s.dstAddr.toNat + s.dstCap.toNat ≤ 2 ^ 32 →
    s.srcWindow.overlaps s.dstWindow = false → s.encodedSize ≤ s.dstCap.toNat →
    ∃ t : State, exec .encode s = .next t ∧
      t.freq = histogram s.srcBytes ∧ t.nsym.toNat = (present t.freq).length ∧
      t.resultLen.toNat = s.encodedSize ∧
      t.mem.bytes s.dstAddr.toNat s.encodedSize =
        headerBytes t.freq t.nsym.toNat s.srcLen.toNat t.finalBits.toNat ++
          packBits (encodeBits t.codeLen t.codeBits s.srcBytes) ∧
      (∀ a : Nat, a < s.dstAddr.toNat ∨ s.dstAddr.toNat + s.encodedSize ≤ a →
        t.mem.read a = s.mem.read a) ∧
      (t.nsym ≠ 0 → (t.arena, t.root) = buildArena t.freq t.nsym s.draws ∧
        ({ len := t.codeLen, bits := t.codeBits } : CodeTable) = codesFor t.freq t.nsym s.draws) ∧
      (t.nsym = 0 → t.arena = s.arena ∧ t.root = s.root ∧ t.codeLen = s.codeLen ∧ t.codeBits = s.codeBits) ∧
      t.totalBits.toNat = s.encodedBits ∧ t.finalBits = finalBitsOf t.totalBits ∧
      t = { s with
        freq := t.freq, nsym := t.nsym, origLen := s.srcLen.setWidth 64, arena := t.arena, root := t.root
        codeLen := t.codeLen, codeBits := t.codeBits, totalBits := t.totalBits, finalBits := t.finalBits
        mem := t.mem, resultLen := t.resultLen
        tableValid := true, hdrValid := false
        treeValid := decide (t.nsym ≠ 0), codesValid := decide (t.nsym ≠ 0)
        inflight := none, done := true, err := false, errCode := .none, doneIp := true, draws := t.draws }

/-- 44_encoder.md R190, R192, 60_exceptions.md R235: when ENCODE fails, in check order, and what it leaves. One
that fails in COUNT changes only STATUS, DONE_IP and RESULT_LEN; one that fails later leaves the source's table,
tree and codes valid and everything else (memory included) as it was. -/
def Obligations.EncodeErrorKeepsSteps : Prop :=
  ∀ s : State, s.raced = false →
    (2 ^ 32 < s.srcAddr.toNat + s.srcLen.toNat →
      exec .encode s = .next { s with
        inflight := none, done := true, err := true, errCode := .addressRange, doneIp := true
        resultLen := 0, draws := s.draws + 1 }) ∧
    (s.srcAddr.toNat + s.srcLen.toNat ≤ 2 ^ 32 → 2 ^ 32 < s.dstAddr.toNat + s.dstCap.toNat →
      ∃ t : State, exec .encode s = .next t ∧ Completed .addressRange t) ∧
    (s.srcAddr.toNat + s.srcLen.toNat ≤ 2 ^ 32 → s.dstAddr.toNat + s.dstCap.toNat ≤ 2 ^ 32 →
      s.srcWindow.overlaps s.dstWindow = true →
      ∃ t : State, exec .encode s = .next t ∧ Completed .overlap t) ∧
    (s.srcAddr.toNat + s.srcLen.toNat ≤ 2 ^ 32 → s.dstAddr.toNat + s.dstCap.toNat ≤ 2 ^ 32 →
      s.srcWindow.overlaps s.dstWindow = false → s.dstCap.toNat < s.encodedSize →
      ∃ t : State, exec .encode s = .next t ∧ Completed .outputOverflow t) ∧
    (s.srcAddr.toNat + s.srcLen.toNat ≤ 2 ^ 32 →
      ∀ t : State, exec .encode s = .next t → t.errCode ≠ .none →
        t.freq = histogram s.srcBytes ∧ t.nsym.toNat = (present t.freq).length ∧ t.FlagsTruthful ∧
        (t.nsym = 0 → t.arena = s.arena ∧ t.root = s.root ∧ t.codeLen = s.codeLen ∧
          t.codeBits = s.codeBits ∧ t.totalBits = s.totalBits ∧ t.finalBits = s.finalBits) ∧
        t = { s with
          freq := t.freq, nsym := t.nsym, origLen := s.srcLen.setWidth 64, arena := t.arena, root := t.root
          codeLen := t.codeLen, codeBits := t.codeBits, totalBits := t.totalBits, finalBits := t.finalBits
          tableValid := true, hdrValid := false
          treeValid := decide (t.nsym ≠ 0), codesValid := decide (t.nsym ≠ 0), resultLen := 0
          inflight := none, done := true, err := true, errCode := t.errCode, doneIp := true
          draws := t.draws })

/-- 45_decoder.md R220: DECODE of a stream its own tree decodes completes with the output, loads the header's
table, payload description and tree, and changes nothing else. -/
def Obligations.DecodeCompletes : Prop :=
  ∀ (s : State) (h : Header) (out : List Byte), s.raced = false → s.mem.wf = true →
    s.srcAddr.toNat + s.srcLen.toNat ≤ 2 ^ 32 →
    parseHeader s.mem s.srcAddr.toNat s.srcLen.toNat = .ok h →
    s.dstAddr.toNat + s.dstCap.toNat ≤ 2 ^ 32 →
    (s.decodeStart h).payWindow.overlaps s.dstWindow = false → h.orig ≤ s.dstCap.toNat →
    (s.decodeStart h).decodeOutput = .ok out →
    ∃ t : State, exec .decode s = .next t ∧ Completed .none t ∧ HeaderLoaded s h t ∧ SameButDecoded s t ∧
      out.length = h.orig ∧ t.resultLen.toNat = out.length ∧
      t.mem.bytes s.dstAddr.toNat out.length = out ∧
      (∀ a : Nat, a < s.dstAddr.toNat ∨ s.dstAddr.toNat + out.length ≤ a → t.mem.read a = s.mem.read a)

/-- 45_decoder.md R220, R221, R207, R218, 60_exceptions.md R235: when DECODE fails, in check order, and what it
leaves. A source window out of range changes only STATUS, DONE_IP and RESULT_LEN; a corrupt header clears the
flags; a later error keeps the header's table, payload description and tree. RESULT_LEN is 0 in all. -/
def Obligations.DecodeErrorKeepsSteps : Prop :=
  ∀ s : State, s.raced = false →
    (2 ^ 32 < s.srcAddr.toNat + s.srcLen.toNat →
      exec .decode s = .next { s with
        inflight := none, done := true, err := true, errCode := .addressRange, doneIp := true
        resultLen := 0, draws := s.draws + 1 }) ∧
    (s.srcAddr.toNat + s.srcLen.toNat ≤ 2 ^ 32 →
      ∀ e, parseHeader s.mem s.srcAddr.toNat s.srcLen.toNat = .error e →
        ∃ t : State, exec .decode s = .next t ∧
          t = { s with
            freq := t.freq, nsym := t.nsym, origLen := t.origLen
            payAddr := t.payAddr, payLen := t.payLen, payFbb := t.payFbb
            tableValid := false, treeValid := false, codesValid := false, hdrValid := false, resultLen := 0
            inflight := none, done := true, err := true, errCode := e, doneIp := true, draws := t.draws }) ∧
    (s.srcAddr.toNat + s.srcLen.toNat ≤ 2 ^ 32 →
      ∀ h, parseHeader s.mem s.srcAddr.toNat s.srcLen.toNat = .ok h →
        let p := s.decodeStart h
        let walk := walkSymbols p.arena p.draws p.root h.orig p.payloadBits
        let inRange := s.dstAddr.toNat + s.dstCap.toNat ≤ 2 ^ 32
        let clear := p.payWindow.overlaps s.dstWindow = false
        let fails := fun (e : ErrCode) => ∃ t : State, exec .decode s = .next t ∧ Completed e t ∧
          HeaderLoaded s h t ∧ SameButDecoded s t ∧ t.resultLen = 0 ∧ SameOutside s.dstWindow s t ∧
          (e.isCorrupt = false → t.mem = s.mem)
        (¬ inRange → fails .addressRange) ∧
        (inRange → ¬ clear → fails .overlap) ∧
        (inRange → clear → s.dstCap.toNat < h.orig → fails .outputOverflow) ∧
        (inRange → clear → h.orig ≤ s.dstCap.toNat →
          (∀ e, walk = .error e → (e = .corruptEndOfStream ∨ e = .corruptMissingChild) ∧ fails e) ∧
          (∀ out rest, walk = .ok (out, rest) → rest ≠ [] → fails .corruptTrailingBits) ∧
          (∀ out, walk = .ok (out, []) → histogram out ≠ h.freq → fails .corruptHistogram)))

/-- 45_decoder.md R220: decode(encode(B)) = B for every B whose encoding fits the destination window. -/
def Obligations.DecodeOfEncodeIsIdentity : Prop :=
  ∀ (s t : State) (d c : Word), s.raced = false → s.mem.wf = true → exec .encode s = .next t →
    t.errCode = .none →
    d.toNat + c.toNat ≤ 2 ^ 32 → s.srcLen.toNat ≤ c.toNat →
    Window.overlaps { base := s.dstAddr, len := t.resultLen } { base := d, len := c } = false →
    ∃ u : State,
      exec .decode { t with srcAddr := s.dstAddr, srcLen := t.resultLen, dstAddr := d, dstCap := c } = .next u ∧
      Completed .none u ∧ u.resultLen = s.srcLen ∧ u.mem.bytes d.toNat s.srcLen.toNat = s.srcBytes

/-! ## Invariants and the race -/

/-- Memory keeps its canonical form, the arena its bound (10_state.md R43), and no command is in flight while
reset is asserted (70_reset_and_hazards.md R262), whatever the step and whatever the draws. -/
def Obligations.StepKeepsShape : Prop :=
  ∀ s t : State, s.shapeOk = true → step s = .next t → t.shapeOk = true

/-- 10_state.md R45: after every step of a machine whose running command is not raced, the four flags keep
their promises. -/
def Obligations.StepKeepsFlagsTruthful : Prop :=
  ∀ s t : State, s.FlagsTruthful → s.raced = false → step s = .next t → t.FlagsTruthful

/-- The state after reset meets both invariants, whatever tables and memory it finds. -/
def Obligations.ResetMeetsInvariants : Prop :=
  (∀ (m : Memory) (f : Vector Word 256) (l : Vector Byte 256) (c : Vector CodeWord 256), m.wf = true →
    (State.resetWith m f l c).shapeOk = true ∧ (State.resetWith m f l c).FlagsTruthful) ∧
  State.reset.shapeOk = true ∧ State.reset.FlagsTruthful

/-- 70_reset_and_hazards.md R265: a raced command still completes, with one of its codes or 0x00, changes no byte
outside its windows, and changes no register, table or flag its rule does not let it write: of each command, the
fields written `f := t.f` are free and every other is given. What a rule lets a command write is log entry 9's
reading, and entry 26's for EMIT_STREAM; CLEAR, BUILD_TREE and ASSIGN_CODES have no window to be raced in. -/
def Obligations.RacedCommandCompletes : Prop :=
  ∀ (i : Instr) (s : State), s.raced = true → ∃ t : State, exec i s = .next t ∧
    (t.errCode = .none ∨ t.errCode ∈ errsOf i) ∧ SameOutside s.dstWindow s t ∧
    let u : State := { s with
      inflight := none, done := true, err := t.err, errCode := t.errCode, doneIp := true, draws := t.draws }
    (i = .clear → t = { u with
      freq := t.freq, nsym := t.nsym, origLen := t.origLen
      payAddr := t.payAddr, payLen := t.payLen, payFbb := t.payFbb, arena := t.arena, root := t.root
      codeLen := t.codeLen, codeBits := t.codeBits, totalBits := t.totalBits, finalBits := t.finalBits
      resultLen := t.resultLen
      tableValid := t.tableValid, treeValid := t.treeValid, codesValid := t.codesValid
      hdrValid := t.hdrValid }) ∧
    (i = .count → t = { u with
      freq := t.freq, nsym := t.nsym, origLen := t.origLen
      tableValid := t.tableValid, treeValid := t.treeValid, codesValid := t.codesValid
      hdrValid := t.hdrValid }) ∧
    (i = .buildTree → t = { u with
      arena := t.arena, root := t.root, treeValid := t.treeValid, codesValid := t.codesValid }) ∧
    (i = .assignCodes → t = { u with
      codeLen := t.codeLen, codeBits := t.codeBits, totalBits := t.totalBits, finalBits := t.finalBits
      codesValid := t.codesValid }) ∧
    (i = .emitStream → t = { u with
      totalBits := t.totalBits, finalBits := t.finalBits, resultLen := t.resultLen, mem := t.mem }) ∧
    (i = .parseHeader → t = { u with
      freq := t.freq, nsym := t.nsym, origLen := t.origLen
      payAddr := t.payAddr, payLen := t.payLen, payFbb := t.payFbb
      tableValid := t.tableValid, treeValid := t.treeValid, codesValid := t.codesValid
      hdrValid := t.hdrValid }) ∧
    (i = .decodePayload → t = { u with resultLen := t.resultLen, mem := t.mem }) ∧
    (i = .encode → t = { u with
      freq := t.freq, nsym := t.nsym, origLen := t.origLen, arena := t.arena, root := t.root
      codeLen := t.codeLen, codeBits := t.codeBits, totalBits := t.totalBits, finalBits := t.finalBits
      resultLen := t.resultLen, mem := t.mem
      tableValid := t.tableValid, treeValid := t.treeValid, codesValid := t.codesValid
      hdrValid := t.hdrValid }) ∧
    (i = .decode → t = { u with
      freq := t.freq, nsym := t.nsym, origLen := t.origLen
      payAddr := t.payAddr, payLen := t.payLen, payFbb := t.payFbb, arena := t.arena, root := t.root
      resultLen := t.resultLen, mem := t.mem
      tableValid := t.tableValid, treeValid := t.treeValid, codesValid := t.codesValid
      hdrValid := t.hdrValid })

/-- 70_reset_and_hazards.md R265, 20_memory.md R65: a byte written from outside races the running command just
when it lies in one of its windows; a read of its write window is a free draw. -/
def Obligations.OutsideAccessesRace : Prop :=
  (∀ (s : State) (i : Instr) (a : Word) (b : Byte), s.running = some i →
    (s.outsideWrite a b).raced =
      (s.raced || (readWindows i s ++ writeWindows i s).any fun w => w.contains a.toNat)) ∧
  (∀ (s : State) (a : Word) (b : Byte), s.mem.wf = true → (s.outsideWrite a b).mem.read a.toNat = b) ∧
  (∀ (s : State) (i : Instr) (a : Word), s.running = some i →
    (writeWindows i s).any (fun w => w.contains a.toNat) = true →
    s.outsideRead a = Config.draw 8 s.draws .memRead 0) ∧
  (∀ (s : State) (a : Word), s.inWriteWindow a.toNat = false → s.outsideRead a = s.mem.read a.toNat)
end

