-- ==== Sys2Proof/Laws/Memory.lean ====
section
/-! SUPPORT. Memory: a read after a write, the bytes a write leaves alone, and the canonical form, which every
memory operation keeps. -/

namespace Sys2Proof.Machine

@[simp] theorem Memory.read_nil (a : Nat) : Memory.read [] a = 0 := rfl

theorem Memory.read_cons (k : Nat) (v : Byte) (m : Memory) (a : Nat) :
    Memory.read ((k, v) :: m) a = if k = a then v else Memory.read m a := rfl

theorem Memory.read_put_other (m : Memory) (a x : Nat) (b : Byte) (h : x ≠ a) :
    (Memory.put m a b).read x = Memory.read m x := by
  induction m with
  | nil => unfold Memory.put; split <;> simp [Memory.read, Ne.symm h]
  | cons c m ih =>
    obtain ⟨k, v⟩ := c
    unfold Memory.put
    split_ifs with h1 h2 h3 h3
    · simp [Memory.read_cons, ih]
    · subst h2; simp [Memory.read_cons, Ne.symm h]
    · subst h2; simp [Memory.read_cons, Ne.symm h]
    · rfl
    · simp [Memory.read_cons, Ne.symm h]

/-- A write leaves every other byte alone. -/
theorem Memory.read_write_other (m : Memory) (a x : Nat) (b : Byte) (h : x ≠ a) :
    (m.write a b).read x = m.read x := by
  unfold Memory.write
  split
  · exact Memory.read_put_other m a x b h
  · rfl

/-- In canonical form, no byte below the form's bound is listed. -/
theorem Memory.read_of_wfFrom (m : Memory) (lo a : Nat) (h : Memory.wfFrom lo m = true) (ha : a < lo) :
    Memory.read m a = 0 := by
  induction m generalizing lo with
  | nil => rfl
  | cons c m ih =>
    obtain ⟨k, v⟩ := c
    simp only [Memory.wfFrom, Bool.and_eq_true, decide_eq_true_eq] at h
    rw [Memory.read_cons, if_neg (by omega)]
    exact ih (k + 1) h.2 (by omega)

theorem Memory.wfFrom_mono (m : Memory) (lo lo' : Nat) (h : Memory.wfFrom lo m = true) (hl : lo' ≤ lo) :
    Memory.wfFrom lo' m = true := by
  cases m with
  | nil => rfl
  | cons c m =>
    obtain ⟨k, v⟩ := c
    simp only [Memory.wfFrom, Bool.and_eq_true, decide_eq_true_eq] at h ⊢
    exact ⟨⟨⟨by omega, h.1.1.2⟩, h.1.2⟩, h.2⟩

/-- `put` keeps the canonical form. -/
theorem Memory.wfFrom_put (m : Memory) (lo a : Nat) (b : Byte) (h : Memory.wfFrom lo m = true) (hlo : lo ≤ a)
    (ha : a < addrSpace) : Memory.wfFrom lo (Memory.put m a b) = true := by
  induction m generalizing lo with
  | nil => unfold Memory.put; split <;> simp_all [Memory.wfFrom]
  | cons c m ih =>
    obtain ⟨k, v⟩ := c
    have hc := h
    simp only [Memory.wfFrom, Bool.and_eq_true, decide_eq_true_eq] at h
    obtain ⟨⟨⟨h1, h2⟩, h3⟩, h4⟩ := h
    unfold Memory.put
    split_ifs with p q r r
    · simp only [Memory.wfFrom, Bool.and_eq_true, decide_eq_true_eq]
      exact ⟨⟨⟨h1, h2⟩, h3⟩, ih (k + 1) h4 (by omega)⟩
    · exact Memory.wfFrom_mono m (k + 1) lo h4 (by omega)
    · subst q
      simp only [Memory.wfFrom, Bool.and_eq_true, decide_eq_true_eq]
      exact ⟨⟨⟨h1, h2⟩, r⟩, h4⟩
    · exact hc
    · simp only [Memory.wfFrom, Bool.and_eq_true, decide_eq_true_eq]
      exact ⟨⟨⟨hlo, ha⟩, r⟩, ⟨⟨by omega, h2⟩, h3⟩, h4⟩

/-- A write keeps the canonical form. -/
theorem Memory.wf_write (m : Memory) (a : Nat) (b : Byte) (h : m.wf = true) : (m.write a b).wf = true := by
  unfold Memory.write
  split
  · exact Memory.wfFrom_put m 0 a b h (Nat.zero_le a) ‹_›
  · exact h

theorem Memory.read_put_same (m : Memory) (lo a : Nat) (b : Byte) (h : Memory.wfFrom lo m = true) :
    (Memory.put m a b).read a = b := by
  induction m generalizing lo with
  | nil => unfold Memory.put; split <;> simp_all [Memory.read]
  | cons c m ih =>
    obtain ⟨k, v⟩ := c
    simp only [Memory.wfFrom, Bool.and_eq_true, decide_eq_true_eq] at h
    obtain ⟨⟨⟨h1, h2⟩, h3⟩, h4⟩ := h
    unfold Memory.put
    split_ifs with p q r r
    · rw [Memory.read_cons, if_neg (by omega)]
      exact ih (k + 1) h4
    · subst q
      rw [Memory.read_of_wfFrom m (k + 1) k h4 (by omega), r]
    · simp [Memory.read_cons]
    · rw [Memory.read_cons, if_neg q, Memory.read_of_wfFrom m (k + 1) a h4 (by omega), r]
    · simp [Memory.read_cons]

/-- A read after a write to the same place gives the byte written. -/
theorem Memory.read_write_same (m : Memory) (a : Nat) (b : Byte) (h : m.wf = true) (ha : a < addrSpace) :
    (m.write a b).read a = b := by
  unfold Memory.write
  rw [if_pos ha]
  exact Memory.read_put_same m 0 a b h

theorem Memory.wf_writeBytes (m : Memory) (a : Nat) (bs : List Byte) (h : m.wf = true) :
    (m.writeBytes a bs).wf = true := by
  induction bs generalizing m a with
  | nil => exact h
  | cons b bs ih => exact ih _ _ (Memory.wf_write m a b h)

/-- Writing two pieces one after the other is writing them joined. -/
theorem Memory.writeBytes_append (m : Memory) (a : Nat) (bs cs : List Byte) :
    m.writeBytes a (bs ++ cs) = (m.writeBytes a bs).writeBytes (a + bs.length) cs := by
  induction bs generalizing m a with
  | nil => rfl
  | cons b bs ih =>
    simp only [List.cons_append, Memory.writeBytes, List.length_cons]
    rw [ih, show a + 1 + bs.length = a + (bs.length + 1) by omega]

/-- Bytes outside the ones written read as before. -/
theorem Memory.read_writeBytes_outside (m : Memory) (a x : Nat) (bs : List Byte)
    (h : x < a ∨ a + bs.length ≤ x) : (m.writeBytes a bs).read x = m.read x := by
  induction bs generalizing m a with
  | nil => rfl
  | cons b bs ih =>
    simp only [List.length_cons] at h
    unfold Memory.writeBytes
    rw [ih _ _ (by omega), Memory.read_write_other m a x b (by omega)]

/-- The bytes written read back. -/
theorem Memory.read_writeBytes_inside (m : Memory) (a i : Nat) (bs : List Byte) (h : m.wf = true)
    (hi : i < bs.length) (hr : a + bs.length ≤ addrSpace) :
    (m.writeBytes a bs).read (a + i) = bs[i] := by
  induction bs generalizing m a i with
  | nil => simp at hi
  | cons b bs ih =>
    simp only [List.length_cons] at hi hr
    unfold Memory.writeBytes
    cases i with
    | zero =>
      rw [Memory.read_writeBytes_outside _ _ _ _ (by omega)]
      exact Memory.read_write_same m a b h (by omega)
    | succ i =>
      have := ih (m.write a b) (a + 1) i (Memory.wf_write m a b h) (by omega) (by omega)
      rw [show a + (i + 1) = a + 1 + i by omega, this]
      rfl

/-- A buffer just written reads back whole. -/
theorem Memory.bytes_writeBytes (m : Memory) (a : Nat) (bs : List Byte) (h : m.wf = true)
    (hr : a + bs.length ≤ addrSpace) : (m.writeBytes a bs).bytes a bs.length = bs := by
  apply List.ext_getElem
  · simp [Memory.bytes]
  · intro i h1 h2
    simp only [Memory.bytes, List.getElem_map, List.getElem_range]
    exact Memory.read_writeBytes_inside m a i bs h h2 hr

@[simp] theorem Memory.length_bytes (m : Memory) (a n : Nat) : (m.bytes a n).length = n := by
  simp [Memory.bytes]

theorem Memory.getElem_bytes (m : Memory) (a n i : Nat) (h : i < (m.bytes a n).length) :
    (m.bytes a n)[i] = m.read (a + i) := by
  simp [Memory.bytes]

theorem Memory.wf_scramble (m : Memory) (a n seed : Nat) (h : m.wf = true) :
    (m.scramble a n seed).wf = true :=
  Memory.wf_writeBytes m a _ h

/-- Scrambling a range leaves every byte outside it. -/
theorem Memory.read_scramble_outside (m : Memory) (a n seed x : Nat) (h : x < a ∨ a + n ≤ x) :
    (m.scramble a n seed).read x = m.read x :=
  Memory.read_writeBytes_outside m a x _ (by simpa using h)

/-- Scrambling the destination window leaves every byte outside it. -/
theorem State.read_scrambleDst_outside (s : State) (x : Nat) (h : s.dstWindow.contains x = false) :
    s.scrambleDst.read x = s.mem.read x := by
  apply Memory.read_scramble_outside
  have := of_decide_eq_false h
  simp only [State.dstWindow] at this
  omega

/-- Reading is what the bytes at the addresses say: equal bytes give equal buffers. -/
theorem Memory.bytes_congr (m m' : Memory) (a n : Nat) (h : ∀ x, a ≤ x → x < a + n → m.read x = m'.read x) :
    m.bytes a n = m'.bytes a n := by
  unfold Memory.bytes
  apply List.map_congr_left
  intro i hi
  exact h (a + i) (by omega) (by have := List.mem_range.mp hi; omega)

theorem Memory.beRead_congr (m m' : Memory) (a n : Nat)
    (h : ∀ x, a ≤ x → x < a + n → m.read x = m'.read x) : m.beRead a n = m'.beRead a n := by
  unfold Memory.beRead
  rw [Memory.bytes_congr m m' a n h]

/-- A payload bit depends on memory only inside the payload window (20_memory.md R65). -/
theorem State.payloadBit_congr (s : State) (m : Memory) (k : Nat)
    (h : ∀ x, s.payAddr.toNat ≤ x → x < s.payAddr.toNat + s.payLen.toNat → m.read x = s.mem.read x) :
    { s with mem := m }.payloadBit k = s.payloadBit k := by
  simp only [State.payloadBit]
  split
  · rw [h _ (by omega) (by omega)]
  · rfl

/-- So do the payload's bits. -/
theorem State.payloadBits_congr (s : State) (m : Memory)
    (h : ∀ x, s.payAddr.toNat ≤ x → x < s.payAddr.toNat + s.payLen.toNat → m.read x = s.mem.read x) :
    { s with mem := m }.payloadBits = s.payloadBits := by
  unfold State.payloadBits
  exact List.map_congr_left fun k _ => s.payloadBit_congr m k h

end Sys2Proof.Machine
end

