-- ==== Sys2Proof/Laws/State.lean ====
section
/-! SUPPORT. One lemma per field of State and named update of it, each true by rfl: a later proof rewrites
with these and unfolds no record update. -/

namespace Sys2Proof.Machine

variable (s : State)

/-! ## accept -/

@[simp] theorem State.accept_inflight (v : Word) (w : Nat) : (s.accept v w).inflight = some { word := v, wait := w, raced := false } := rfl
@[simp] theorem State.accept_done (v : Word) (w : Nat) : (s.accept v w).done = false := rfl
@[simp] theorem State.accept_err (v : Word) (w : Nat) : (s.accept v w).err = false := rfl
@[simp] theorem State.accept_wbusy (v : Word) (w : Nat) : (s.accept v w).wbusy = false := rfl
@[simp] theorem State.accept_errCode (v : Word) (w : Nat) : (s.accept v w).errCode = .none := rfl
@[simp] theorem State.accept_tableValid (v : Word) (w : Nat) : (s.accept v w).tableValid = s.tableValid := rfl
@[simp] theorem State.accept_treeValid (v : Word) (w : Nat) : (s.accept v w).treeValid = s.treeValid := rfl
@[simp] theorem State.accept_codesValid (v : Word) (w : Nat) : (s.accept v w).codesValid = s.codesValid := rfl
@[simp] theorem State.accept_hdrValid (v : Word) (w : Nat) : (s.accept v w).hdrValid = s.hdrValid := rfl
@[simp] theorem State.accept_lastOp (v : Word) (w : Nat) : (s.accept v w).lastOp = v.setWidth 8 := rfl
@[simp] theorem State.accept_doneIe (v : Word) (w : Nat) : (s.accept v w).doneIe = s.doneIe := rfl
@[simp] theorem State.accept_doneIp (v : Word) (w : Nat) : (s.accept v w).doneIp = s.doneIp := rfl
@[simp] theorem State.accept_srcAddr (v : Word) (w : Nat) : (s.accept v w).srcAddr = s.srcAddr := rfl
@[simp] theorem State.accept_srcLen (v : Word) (w : Nat) : (s.accept v w).srcLen = s.srcLen := rfl
@[simp] theorem State.accept_dstAddr (v : Word) (w : Nat) : (s.accept v w).dstAddr = s.dstAddr := rfl
@[simp] theorem State.accept_dstCap (v : Word) (w : Nat) : (s.accept v w).dstCap = s.dstCap := rfl
@[simp] theorem State.accept_resultLen (v : Word) (w : Nat) : (s.accept v w).resultLen = s.resultLen := rfl
@[simp] theorem State.accept_nsym (v : Word) (w : Nat) : (s.accept v w).nsym = s.nsym := rfl
@[simp] theorem State.accept_origLen (v : Word) (w : Nat) : (s.accept v w).origLen = s.origLen := rfl
@[simp] theorem State.accept_totalBits (v : Word) (w : Nat) : (s.accept v w).totalBits = s.totalBits := rfl
@[simp] theorem State.accept_finalBits (v : Word) (w : Nat) : (s.accept v w).finalBits = s.finalBits := rfl
@[simp] theorem State.accept_root (v : Word) (w : Nat) : (s.accept v w).root = s.root := rfl
@[simp] theorem State.accept_payAddr (v : Word) (w : Nat) : (s.accept v w).payAddr = s.payAddr := rfl
@[simp] theorem State.accept_payLen (v : Word) (w : Nat) : (s.accept v w).payLen = s.payLen := rfl
@[simp] theorem State.accept_payFbb (v : Word) (w : Nat) : (s.accept v w).payFbb = s.payFbb := rfl
@[simp] theorem State.accept_tblIndex (v : Word) (w : Nat) : (s.accept v w).tblIndex = s.tblIndex := rfl
@[simp] theorem State.accept_freq (v : Word) (w : Nat) : (s.accept v w).freq = s.freq := rfl
@[simp] theorem State.accept_codeLen (v : Word) (w : Nat) : (s.accept v w).codeLen = s.codeLen := rfl
@[simp] theorem State.accept_codeBits (v : Word) (w : Nat) : (s.accept v w).codeBits = s.codeBits := rfl
@[simp] theorem State.accept_arena (v : Word) (w : Nat) : (s.accept v w).arena = s.arena := rfl
@[simp] theorem State.accept_mem (v : Word) (w : Nat) : (s.accept v w).mem = s.mem := rfl
@[simp] theorem State.accept_rst (v : Word) (w : Nat) : (s.accept v w).rst = s.rst := rfl
@[simp] theorem State.accept_inputs (v : Word) (w : Nat) : (s.accept v w).inputs = s.inputs := rfl
@[simp] theorem State.accept_seen (v : Word) (w : Nat) : (s.accept v w).seen = s.seen := rfl
@[simp] theorem State.accept_draws (v : Word) (w : Nat) : (s.accept v w).draws = s.draws := rfl

/-! ## completeOk -/

@[simp] theorem State.completeOk_inflight : s.completeOk.inflight = none := rfl
@[simp] theorem State.completeOk_done : s.completeOk.done = true := rfl
@[simp] theorem State.completeOk_err : s.completeOk.err = false := rfl
@[simp] theorem State.completeOk_wbusy : s.completeOk.wbusy = s.wbusy := rfl
@[simp] theorem State.completeOk_errCode : s.completeOk.errCode = .none := rfl
@[simp] theorem State.completeOk_tableValid : s.completeOk.tableValid = s.tableValid := rfl
@[simp] theorem State.completeOk_treeValid : s.completeOk.treeValid = s.treeValid := rfl
@[simp] theorem State.completeOk_codesValid : s.completeOk.codesValid = s.codesValid := rfl
@[simp] theorem State.completeOk_hdrValid : s.completeOk.hdrValid = s.hdrValid := rfl
@[simp] theorem State.completeOk_lastOp : s.completeOk.lastOp = s.lastOp := rfl
@[simp] theorem State.completeOk_doneIe : s.completeOk.doneIe = s.doneIe := rfl
@[simp] theorem State.completeOk_doneIp : s.completeOk.doneIp = true := rfl
@[simp] theorem State.completeOk_srcAddr : s.completeOk.srcAddr = s.srcAddr := rfl
@[simp] theorem State.completeOk_srcLen : s.completeOk.srcLen = s.srcLen := rfl
@[simp] theorem State.completeOk_dstAddr : s.completeOk.dstAddr = s.dstAddr := rfl
@[simp] theorem State.completeOk_dstCap : s.completeOk.dstCap = s.dstCap := rfl
@[simp] theorem State.completeOk_resultLen : s.completeOk.resultLen = s.resultLen := rfl
@[simp] theorem State.completeOk_nsym : s.completeOk.nsym = s.nsym := rfl
@[simp] theorem State.completeOk_origLen : s.completeOk.origLen = s.origLen := rfl
@[simp] theorem State.completeOk_totalBits : s.completeOk.totalBits = s.totalBits := rfl
@[simp] theorem State.completeOk_finalBits : s.completeOk.finalBits = s.finalBits := rfl
@[simp] theorem State.completeOk_root : s.completeOk.root = s.root := rfl
@[simp] theorem State.completeOk_payAddr : s.completeOk.payAddr = s.payAddr := rfl
@[simp] theorem State.completeOk_payLen : s.completeOk.payLen = s.payLen := rfl
@[simp] theorem State.completeOk_payFbb : s.completeOk.payFbb = s.payFbb := rfl
@[simp] theorem State.completeOk_tblIndex : s.completeOk.tblIndex = s.tblIndex := rfl
@[simp] theorem State.completeOk_freq : s.completeOk.freq = s.freq := rfl
@[simp] theorem State.completeOk_codeLen : s.completeOk.codeLen = s.codeLen := rfl
@[simp] theorem State.completeOk_codeBits : s.completeOk.codeBits = s.codeBits := rfl
@[simp] theorem State.completeOk_arena : s.completeOk.arena = s.arena := rfl
@[simp] theorem State.completeOk_mem : s.completeOk.mem = s.mem := rfl
@[simp] theorem State.completeOk_rst : s.completeOk.rst = s.rst := rfl
@[simp] theorem State.completeOk_inputs : s.completeOk.inputs = s.inputs := rfl
@[simp] theorem State.completeOk_seen : s.completeOk.seen = s.seen := rfl
@[simp] theorem State.completeOk_draws : s.completeOk.draws = s.draws + 1 := rfl

/-! ## takeError -/

@[simp] theorem State.takeError_inflight (e : ErrCode) : (s.takeError e).inflight = none := rfl
@[simp] theorem State.takeError_done (e : ErrCode) : (s.takeError e).done = true := rfl
@[simp] theorem State.takeError_err (e : ErrCode) : (s.takeError e).err = true := rfl
@[simp] theorem State.takeError_wbusy (e : ErrCode) : (s.takeError e).wbusy = s.wbusy := rfl
@[simp] theorem State.takeError_errCode (e : ErrCode) : (s.takeError e).errCode = e := rfl
@[simp] theorem State.takeError_tableValid (e : ErrCode) : (s.takeError e).tableValid = s.tableValid := rfl
@[simp] theorem State.takeError_treeValid (e : ErrCode) : (s.takeError e).treeValid = s.treeValid := rfl
@[simp] theorem State.takeError_codesValid (e : ErrCode) : (s.takeError e).codesValid = s.codesValid := rfl
@[simp] theorem State.takeError_hdrValid (e : ErrCode) : (s.takeError e).hdrValid = s.hdrValid := rfl
@[simp] theorem State.takeError_lastOp (e : ErrCode) : (s.takeError e).lastOp = s.lastOp := rfl
@[simp] theorem State.takeError_doneIe (e : ErrCode) : (s.takeError e).doneIe = s.doneIe := rfl
@[simp] theorem State.takeError_doneIp (e : ErrCode) : (s.takeError e).doneIp = true := rfl
@[simp] theorem State.takeError_srcAddr (e : ErrCode) : (s.takeError e).srcAddr = s.srcAddr := rfl
@[simp] theorem State.takeError_srcLen (e : ErrCode) : (s.takeError e).srcLen = s.srcLen := rfl
@[simp] theorem State.takeError_dstAddr (e : ErrCode) : (s.takeError e).dstAddr = s.dstAddr := rfl
@[simp] theorem State.takeError_dstCap (e : ErrCode) : (s.takeError e).dstCap = s.dstCap := rfl
@[simp] theorem State.takeError_resultLen (e : ErrCode) : (s.takeError e).resultLen = s.resultLen := rfl
@[simp] theorem State.takeError_nsym (e : ErrCode) : (s.takeError e).nsym = s.nsym := rfl
@[simp] theorem State.takeError_origLen (e : ErrCode) : (s.takeError e).origLen = s.origLen := rfl
@[simp] theorem State.takeError_totalBits (e : ErrCode) : (s.takeError e).totalBits = s.totalBits := rfl
@[simp] theorem State.takeError_finalBits (e : ErrCode) : (s.takeError e).finalBits = s.finalBits := rfl
@[simp] theorem State.takeError_root (e : ErrCode) : (s.takeError e).root = s.root := rfl
@[simp] theorem State.takeError_payAddr (e : ErrCode) : (s.takeError e).payAddr = s.payAddr := rfl
@[simp] theorem State.takeError_payLen (e : ErrCode) : (s.takeError e).payLen = s.payLen := rfl
@[simp] theorem State.takeError_payFbb (e : ErrCode) : (s.takeError e).payFbb = s.payFbb := rfl
@[simp] theorem State.takeError_tblIndex (e : ErrCode) : (s.takeError e).tblIndex = s.tblIndex := rfl
@[simp] theorem State.takeError_freq (e : ErrCode) : (s.takeError e).freq = s.freq := rfl
@[simp] theorem State.takeError_codeLen (e : ErrCode) : (s.takeError e).codeLen = s.codeLen := rfl
@[simp] theorem State.takeError_codeBits (e : ErrCode) : (s.takeError e).codeBits = s.codeBits := rfl
@[simp] theorem State.takeError_arena (e : ErrCode) : (s.takeError e).arena = s.arena := rfl
@[simp] theorem State.takeError_mem (e : ErrCode) : (s.takeError e).mem = s.mem := rfl
@[simp] theorem State.takeError_rst (e : ErrCode) : (s.takeError e).rst = s.rst := rfl
@[simp] theorem State.takeError_inputs (e : ErrCode) : (s.takeError e).inputs = s.inputs := rfl
@[simp] theorem State.takeError_seen (e : ErrCode) : (s.takeError e).seen = s.seen := rfl
@[simp] theorem State.takeError_draws (e : ErrCode) : (s.takeError e).draws = s.draws + 1 := rfl

/-! ## flagsTable -/

@[simp] theorem State.flagsTable_inflight : s.flagsTable.inflight = s.inflight := rfl
@[simp] theorem State.flagsTable_done : s.flagsTable.done = s.done := rfl
@[simp] theorem State.flagsTable_err : s.flagsTable.err = s.err := rfl
@[simp] theorem State.flagsTable_wbusy : s.flagsTable.wbusy = s.wbusy := rfl
@[simp] theorem State.flagsTable_errCode : s.flagsTable.errCode = s.errCode := rfl
@[simp] theorem State.flagsTable_tableValid : s.flagsTable.tableValid = true := rfl
@[simp] theorem State.flagsTable_treeValid : s.flagsTable.treeValid = false := rfl
@[simp] theorem State.flagsTable_codesValid : s.flagsTable.codesValid = false := rfl
@[simp] theorem State.flagsTable_hdrValid : s.flagsTable.hdrValid = false := rfl
@[simp] theorem State.flagsTable_lastOp : s.flagsTable.lastOp = s.lastOp := rfl
@[simp] theorem State.flagsTable_doneIe : s.flagsTable.doneIe = s.doneIe := rfl
@[simp] theorem State.flagsTable_doneIp : s.flagsTable.doneIp = s.doneIp := rfl
@[simp] theorem State.flagsTable_srcAddr : s.flagsTable.srcAddr = s.srcAddr := rfl
@[simp] theorem State.flagsTable_srcLen : s.flagsTable.srcLen = s.srcLen := rfl
@[simp] theorem State.flagsTable_dstAddr : s.flagsTable.dstAddr = s.dstAddr := rfl
@[simp] theorem State.flagsTable_dstCap : s.flagsTable.dstCap = s.dstCap := rfl
@[simp] theorem State.flagsTable_resultLen : s.flagsTable.resultLen = s.resultLen := rfl
@[simp] theorem State.flagsTable_nsym : s.flagsTable.nsym = s.nsym := rfl
@[simp] theorem State.flagsTable_origLen : s.flagsTable.origLen = s.origLen := rfl
@[simp] theorem State.flagsTable_totalBits : s.flagsTable.totalBits = s.totalBits := rfl
@[simp] theorem State.flagsTable_finalBits : s.flagsTable.finalBits = s.finalBits := rfl
@[simp] theorem State.flagsTable_root : s.flagsTable.root = s.root := rfl
@[simp] theorem State.flagsTable_payAddr : s.flagsTable.payAddr = s.payAddr := rfl
@[simp] theorem State.flagsTable_payLen : s.flagsTable.payLen = s.payLen := rfl
@[simp] theorem State.flagsTable_payFbb : s.flagsTable.payFbb = s.payFbb := rfl
@[simp] theorem State.flagsTable_tblIndex : s.flagsTable.tblIndex = s.tblIndex := rfl
@[simp] theorem State.flagsTable_freq : s.flagsTable.freq = s.freq := rfl
@[simp] theorem State.flagsTable_codeLen : s.flagsTable.codeLen = s.codeLen := rfl
@[simp] theorem State.flagsTable_codeBits : s.flagsTable.codeBits = s.codeBits := rfl
@[simp] theorem State.flagsTable_arena : s.flagsTable.arena = s.arena := rfl
@[simp] theorem State.flagsTable_mem : s.flagsTable.mem = s.mem := rfl
@[simp] theorem State.flagsTable_rst : s.flagsTable.rst = s.rst := rfl
@[simp] theorem State.flagsTable_inputs : s.flagsTable.inputs = s.inputs := rfl
@[simp] theorem State.flagsTable_seen : s.flagsTable.seen = s.seen := rfl
@[simp] theorem State.flagsTable_draws : s.flagsTable.draws = s.draws := rfl

/-! ## flagsHeader -/

@[simp] theorem State.flagsHeader_inflight : s.flagsHeader.inflight = s.inflight := rfl
@[simp] theorem State.flagsHeader_done : s.flagsHeader.done = s.done := rfl
@[simp] theorem State.flagsHeader_err : s.flagsHeader.err = s.err := rfl
@[simp] theorem State.flagsHeader_wbusy : s.flagsHeader.wbusy = s.wbusy := rfl
@[simp] theorem State.flagsHeader_errCode : s.flagsHeader.errCode = s.errCode := rfl
@[simp] theorem State.flagsHeader_tableValid : s.flagsHeader.tableValid = true := rfl
@[simp] theorem State.flagsHeader_treeValid : s.flagsHeader.treeValid = false := rfl
@[simp] theorem State.flagsHeader_codesValid : s.flagsHeader.codesValid = false := rfl
@[simp] theorem State.flagsHeader_hdrValid : s.flagsHeader.hdrValid = true := rfl
@[simp] theorem State.flagsHeader_lastOp : s.flagsHeader.lastOp = s.lastOp := rfl
@[simp] theorem State.flagsHeader_doneIe : s.flagsHeader.doneIe = s.doneIe := rfl
@[simp] theorem State.flagsHeader_doneIp : s.flagsHeader.doneIp = s.doneIp := rfl
@[simp] theorem State.flagsHeader_srcAddr : s.flagsHeader.srcAddr = s.srcAddr := rfl
@[simp] theorem State.flagsHeader_srcLen : s.flagsHeader.srcLen = s.srcLen := rfl
@[simp] theorem State.flagsHeader_dstAddr : s.flagsHeader.dstAddr = s.dstAddr := rfl
@[simp] theorem State.flagsHeader_dstCap : s.flagsHeader.dstCap = s.dstCap := rfl
@[simp] theorem State.flagsHeader_resultLen : s.flagsHeader.resultLen = s.resultLen := rfl
@[simp] theorem State.flagsHeader_nsym : s.flagsHeader.nsym = s.nsym := rfl
@[simp] theorem State.flagsHeader_origLen : s.flagsHeader.origLen = s.origLen := rfl
@[simp] theorem State.flagsHeader_totalBits : s.flagsHeader.totalBits = s.totalBits := rfl
@[simp] theorem State.flagsHeader_finalBits : s.flagsHeader.finalBits = s.finalBits := rfl
@[simp] theorem State.flagsHeader_root : s.flagsHeader.root = s.root := rfl
@[simp] theorem State.flagsHeader_payAddr : s.flagsHeader.payAddr = s.payAddr := rfl
@[simp] theorem State.flagsHeader_payLen : s.flagsHeader.payLen = s.payLen := rfl
@[simp] theorem State.flagsHeader_payFbb : s.flagsHeader.payFbb = s.payFbb := rfl
@[simp] theorem State.flagsHeader_tblIndex : s.flagsHeader.tblIndex = s.tblIndex := rfl
@[simp] theorem State.flagsHeader_freq : s.flagsHeader.freq = s.freq := rfl
@[simp] theorem State.flagsHeader_codeLen : s.flagsHeader.codeLen = s.codeLen := rfl
@[simp] theorem State.flagsHeader_codeBits : s.flagsHeader.codeBits = s.codeBits := rfl
@[simp] theorem State.flagsHeader_arena : s.flagsHeader.arena = s.arena := rfl
@[simp] theorem State.flagsHeader_mem : s.flagsHeader.mem = s.mem := rfl
@[simp] theorem State.flagsHeader_rst : s.flagsHeader.rst = s.rst := rfl
@[simp] theorem State.flagsHeader_inputs : s.flagsHeader.inputs = s.inputs := rfl
@[simp] theorem State.flagsHeader_seen : s.flagsHeader.seen = s.seen := rfl
@[simp] theorem State.flagsHeader_draws : s.flagsHeader.draws = s.draws := rfl

/-! ## flagsTree -/

@[simp] theorem State.flagsTree_inflight : s.flagsTree.inflight = s.inflight := rfl
@[simp] theorem State.flagsTree_done : s.flagsTree.done = s.done := rfl
@[simp] theorem State.flagsTree_err : s.flagsTree.err = s.err := rfl
@[simp] theorem State.flagsTree_wbusy : s.flagsTree.wbusy = s.wbusy := rfl
@[simp] theorem State.flagsTree_errCode : s.flagsTree.errCode = s.errCode := rfl
@[simp] theorem State.flagsTree_tableValid : s.flagsTree.tableValid = s.tableValid := rfl
@[simp] theorem State.flagsTree_treeValid : s.flagsTree.treeValid = true := rfl
@[simp] theorem State.flagsTree_codesValid : s.flagsTree.codesValid = false := rfl
@[simp] theorem State.flagsTree_hdrValid : s.flagsTree.hdrValid = s.hdrValid := rfl
@[simp] theorem State.flagsTree_lastOp : s.flagsTree.lastOp = s.lastOp := rfl
@[simp] theorem State.flagsTree_doneIe : s.flagsTree.doneIe = s.doneIe := rfl
@[simp] theorem State.flagsTree_doneIp : s.flagsTree.doneIp = s.doneIp := rfl
@[simp] theorem State.flagsTree_srcAddr : s.flagsTree.srcAddr = s.srcAddr := rfl
@[simp] theorem State.flagsTree_srcLen : s.flagsTree.srcLen = s.srcLen := rfl
@[simp] theorem State.flagsTree_dstAddr : s.flagsTree.dstAddr = s.dstAddr := rfl
@[simp] theorem State.flagsTree_dstCap : s.flagsTree.dstCap = s.dstCap := rfl
@[simp] theorem State.flagsTree_resultLen : s.flagsTree.resultLen = s.resultLen := rfl
@[simp] theorem State.flagsTree_nsym : s.flagsTree.nsym = s.nsym := rfl
@[simp] theorem State.flagsTree_origLen : s.flagsTree.origLen = s.origLen := rfl
@[simp] theorem State.flagsTree_totalBits : s.flagsTree.totalBits = s.totalBits := rfl
@[simp] theorem State.flagsTree_finalBits : s.flagsTree.finalBits = s.finalBits := rfl
@[simp] theorem State.flagsTree_root : s.flagsTree.root = s.root := rfl
@[simp] theorem State.flagsTree_payAddr : s.flagsTree.payAddr = s.payAddr := rfl
@[simp] theorem State.flagsTree_payLen : s.flagsTree.payLen = s.payLen := rfl
@[simp] theorem State.flagsTree_payFbb : s.flagsTree.payFbb = s.payFbb := rfl
@[simp] theorem State.flagsTree_tblIndex : s.flagsTree.tblIndex = s.tblIndex := rfl
@[simp] theorem State.flagsTree_freq : s.flagsTree.freq = s.freq := rfl
@[simp] theorem State.flagsTree_codeLen : s.flagsTree.codeLen = s.codeLen := rfl
@[simp] theorem State.flagsTree_codeBits : s.flagsTree.codeBits = s.codeBits := rfl
@[simp] theorem State.flagsTree_arena : s.flagsTree.arena = s.arena := rfl
@[simp] theorem State.flagsTree_mem : s.flagsTree.mem = s.mem := rfl
@[simp] theorem State.flagsTree_rst : s.flagsTree.rst = s.rst := rfl
@[simp] theorem State.flagsTree_inputs : s.flagsTree.inputs = s.inputs := rfl
@[simp] theorem State.flagsTree_seen : s.flagsTree.seen = s.seen := rfl
@[simp] theorem State.flagsTree_draws : s.flagsTree.draws = s.draws := rfl

/-! ## flagsCodes -/

@[simp] theorem State.flagsCodes_inflight : s.flagsCodes.inflight = s.inflight := rfl
@[simp] theorem State.flagsCodes_done : s.flagsCodes.done = s.done := rfl
@[simp] theorem State.flagsCodes_err : s.flagsCodes.err = s.err := rfl
@[simp] theorem State.flagsCodes_wbusy : s.flagsCodes.wbusy = s.wbusy := rfl
@[simp] theorem State.flagsCodes_errCode : s.flagsCodes.errCode = s.errCode := rfl
@[simp] theorem State.flagsCodes_tableValid : s.flagsCodes.tableValid = s.tableValid := rfl
@[simp] theorem State.flagsCodes_treeValid : s.flagsCodes.treeValid = s.treeValid := rfl
@[simp] theorem State.flagsCodes_codesValid : s.flagsCodes.codesValid = true := rfl
@[simp] theorem State.flagsCodes_hdrValid : s.flagsCodes.hdrValid = s.hdrValid := rfl
@[simp] theorem State.flagsCodes_lastOp : s.flagsCodes.lastOp = s.lastOp := rfl
@[simp] theorem State.flagsCodes_doneIe : s.flagsCodes.doneIe = s.doneIe := rfl
@[simp] theorem State.flagsCodes_doneIp : s.flagsCodes.doneIp = s.doneIp := rfl
@[simp] theorem State.flagsCodes_srcAddr : s.flagsCodes.srcAddr = s.srcAddr := rfl
@[simp] theorem State.flagsCodes_srcLen : s.flagsCodes.srcLen = s.srcLen := rfl
@[simp] theorem State.flagsCodes_dstAddr : s.flagsCodes.dstAddr = s.dstAddr := rfl
@[simp] theorem State.flagsCodes_dstCap : s.flagsCodes.dstCap = s.dstCap := rfl
@[simp] theorem State.flagsCodes_resultLen : s.flagsCodes.resultLen = s.resultLen := rfl
@[simp] theorem State.flagsCodes_nsym : s.flagsCodes.nsym = s.nsym := rfl
@[simp] theorem State.flagsCodes_origLen : s.flagsCodes.origLen = s.origLen := rfl
@[simp] theorem State.flagsCodes_totalBits : s.flagsCodes.totalBits = s.totalBits := rfl
@[simp] theorem State.flagsCodes_finalBits : s.flagsCodes.finalBits = s.finalBits := rfl
@[simp] theorem State.flagsCodes_root : s.flagsCodes.root = s.root := rfl
@[simp] theorem State.flagsCodes_payAddr : s.flagsCodes.payAddr = s.payAddr := rfl
@[simp] theorem State.flagsCodes_payLen : s.flagsCodes.payLen = s.payLen := rfl
@[simp] theorem State.flagsCodes_payFbb : s.flagsCodes.payFbb = s.payFbb := rfl
@[simp] theorem State.flagsCodes_tblIndex : s.flagsCodes.tblIndex = s.tblIndex := rfl
@[simp] theorem State.flagsCodes_freq : s.flagsCodes.freq = s.freq := rfl
@[simp] theorem State.flagsCodes_codeLen : s.flagsCodes.codeLen = s.codeLen := rfl
@[simp] theorem State.flagsCodes_codeBits : s.flagsCodes.codeBits = s.codeBits := rfl
@[simp] theorem State.flagsCodes_arena : s.flagsCodes.arena = s.arena := rfl
@[simp] theorem State.flagsCodes_mem : s.flagsCodes.mem = s.mem := rfl
@[simp] theorem State.flagsCodes_rst : s.flagsCodes.rst = s.rst := rfl
@[simp] theorem State.flagsCodes_inputs : s.flagsCodes.inputs = s.inputs := rfl
@[simp] theorem State.flagsCodes_seen : s.flagsCodes.seen = s.seen := rfl
@[simp] theorem State.flagsCodes_draws : s.flagsCodes.draws = s.draws := rfl

/-! ## flagsNone -/

@[simp] theorem State.flagsNone_inflight : s.flagsNone.inflight = s.inflight := rfl
@[simp] theorem State.flagsNone_done : s.flagsNone.done = s.done := rfl
@[simp] theorem State.flagsNone_err : s.flagsNone.err = s.err := rfl
@[simp] theorem State.flagsNone_wbusy : s.flagsNone.wbusy = s.wbusy := rfl
@[simp] theorem State.flagsNone_errCode : s.flagsNone.errCode = s.errCode := rfl
@[simp] theorem State.flagsNone_tableValid : s.flagsNone.tableValid = false := rfl
@[simp] theorem State.flagsNone_treeValid : s.flagsNone.treeValid = false := rfl
@[simp] theorem State.flagsNone_codesValid : s.flagsNone.codesValid = false := rfl
@[simp] theorem State.flagsNone_hdrValid : s.flagsNone.hdrValid = false := rfl
@[simp] theorem State.flagsNone_lastOp : s.flagsNone.lastOp = s.lastOp := rfl
@[simp] theorem State.flagsNone_doneIe : s.flagsNone.doneIe = s.doneIe := rfl
@[simp] theorem State.flagsNone_doneIp : s.flagsNone.doneIp = s.doneIp := rfl
@[simp] theorem State.flagsNone_srcAddr : s.flagsNone.srcAddr = s.srcAddr := rfl
@[simp] theorem State.flagsNone_srcLen : s.flagsNone.srcLen = s.srcLen := rfl
@[simp] theorem State.flagsNone_dstAddr : s.flagsNone.dstAddr = s.dstAddr := rfl
@[simp] theorem State.flagsNone_dstCap : s.flagsNone.dstCap = s.dstCap := rfl
@[simp] theorem State.flagsNone_resultLen : s.flagsNone.resultLen = s.resultLen := rfl
@[simp] theorem State.flagsNone_nsym : s.flagsNone.nsym = s.nsym := rfl
@[simp] theorem State.flagsNone_origLen : s.flagsNone.origLen = s.origLen := rfl
@[simp] theorem State.flagsNone_totalBits : s.flagsNone.totalBits = s.totalBits := rfl
@[simp] theorem State.flagsNone_finalBits : s.flagsNone.finalBits = s.finalBits := rfl
@[simp] theorem State.flagsNone_root : s.flagsNone.root = s.root := rfl
@[simp] theorem State.flagsNone_payAddr : s.flagsNone.payAddr = s.payAddr := rfl
@[simp] theorem State.flagsNone_payLen : s.flagsNone.payLen = s.payLen := rfl
@[simp] theorem State.flagsNone_payFbb : s.flagsNone.payFbb = s.payFbb := rfl
@[simp] theorem State.flagsNone_tblIndex : s.flagsNone.tblIndex = s.tblIndex := rfl
@[simp] theorem State.flagsNone_freq : s.flagsNone.freq = s.freq := rfl
@[simp] theorem State.flagsNone_codeLen : s.flagsNone.codeLen = s.codeLen := rfl
@[simp] theorem State.flagsNone_codeBits : s.flagsNone.codeBits = s.codeBits := rfl
@[simp] theorem State.flagsNone_arena : s.flagsNone.arena = s.arena := rfl
@[simp] theorem State.flagsNone_mem : s.flagsNone.mem = s.mem := rfl
@[simp] theorem State.flagsNone_rst : s.flagsNone.rst = s.rst := rfl
@[simp] theorem State.flagsNone_inputs : s.flagsNone.inputs = s.inputs := rfl
@[simp] theorem State.flagsNone_seen : s.flagsNone.seen = s.seen := rfl
@[simp] theorem State.flagsNone_draws : s.flagsNone.draws = s.draws := rfl

/-! ## loadTable -/

@[simp] theorem State.loadTable_inflight (f : Vector Word 256) (n : Nat) : (s.loadTable f n).inflight = s.inflight := rfl
@[simp] theorem State.loadTable_done (f : Vector Word 256) (n : Nat) : (s.loadTable f n).done = s.done := rfl
@[simp] theorem State.loadTable_err (f : Vector Word 256) (n : Nat) : (s.loadTable f n).err = s.err := rfl
@[simp] theorem State.loadTable_wbusy (f : Vector Word 256) (n : Nat) : (s.loadTable f n).wbusy = s.wbusy := rfl
@[simp] theorem State.loadTable_errCode (f : Vector Word 256) (n : Nat) : (s.loadTable f n).errCode = s.errCode := rfl
@[simp] theorem State.loadTable_tableValid (f : Vector Word 256) (n : Nat) : (s.loadTable f n).tableValid = s.tableValid := rfl
@[simp] theorem State.loadTable_treeValid (f : Vector Word 256) (n : Nat) : (s.loadTable f n).treeValid = s.treeValid := rfl
@[simp] theorem State.loadTable_codesValid (f : Vector Word 256) (n : Nat) : (s.loadTable f n).codesValid = s.codesValid := rfl
@[simp] theorem State.loadTable_hdrValid (f : Vector Word 256) (n : Nat) : (s.loadTable f n).hdrValid = s.hdrValid := rfl
@[simp] theorem State.loadTable_lastOp (f : Vector Word 256) (n : Nat) : (s.loadTable f n).lastOp = s.lastOp := rfl
@[simp] theorem State.loadTable_doneIe (f : Vector Word 256) (n : Nat) : (s.loadTable f n).doneIe = s.doneIe := rfl
@[simp] theorem State.loadTable_doneIp (f : Vector Word 256) (n : Nat) : (s.loadTable f n).doneIp = s.doneIp := rfl
@[simp] theorem State.loadTable_srcAddr (f : Vector Word 256) (n : Nat) : (s.loadTable f n).srcAddr = s.srcAddr := rfl
@[simp] theorem State.loadTable_srcLen (f : Vector Word 256) (n : Nat) : (s.loadTable f n).srcLen = s.srcLen := rfl
@[simp] theorem State.loadTable_dstAddr (f : Vector Word 256) (n : Nat) : (s.loadTable f n).dstAddr = s.dstAddr := rfl
@[simp] theorem State.loadTable_dstCap (f : Vector Word 256) (n : Nat) : (s.loadTable f n).dstCap = s.dstCap := rfl
@[simp] theorem State.loadTable_resultLen (f : Vector Word 256) (n : Nat) : (s.loadTable f n).resultLen = s.resultLen := rfl
@[simp] theorem State.loadTable_nsym (f : Vector Word 256) (n : Nat) : (s.loadTable f n).nsym = BitVec.ofNat 9 (present f).length := rfl
@[simp] theorem State.loadTable_origLen (f : Vector Word 256) (n : Nat) : (s.loadTable f n).origLen = BitVec.ofNat 64 n := rfl
@[simp] theorem State.loadTable_totalBits (f : Vector Word 256) (n : Nat) : (s.loadTable f n).totalBits = s.totalBits := rfl
@[simp] theorem State.loadTable_finalBits (f : Vector Word 256) (n : Nat) : (s.loadTable f n).finalBits = s.finalBits := rfl
@[simp] theorem State.loadTable_root (f : Vector Word 256) (n : Nat) : (s.loadTable f n).root = s.root := rfl
@[simp] theorem State.loadTable_payAddr (f : Vector Word 256) (n : Nat) : (s.loadTable f n).payAddr = s.payAddr := rfl
@[simp] theorem State.loadTable_payLen (f : Vector Word 256) (n : Nat) : (s.loadTable f n).payLen = s.payLen := rfl
@[simp] theorem State.loadTable_payFbb (f : Vector Word 256) (n : Nat) : (s.loadTable f n).payFbb = s.payFbb := rfl
@[simp] theorem State.loadTable_tblIndex (f : Vector Word 256) (n : Nat) : (s.loadTable f n).tblIndex = s.tblIndex := rfl
@[simp] theorem State.loadTable_freq (f : Vector Word 256) (n : Nat) : (s.loadTable f n).freq = f := rfl
@[simp] theorem State.loadTable_codeLen (f : Vector Word 256) (n : Nat) : (s.loadTable f n).codeLen = s.codeLen := rfl
@[simp] theorem State.loadTable_codeBits (f : Vector Word 256) (n : Nat) : (s.loadTable f n).codeBits = s.codeBits := rfl
@[simp] theorem State.loadTable_arena (f : Vector Word 256) (n : Nat) : (s.loadTable f n).arena = s.arena := rfl
@[simp] theorem State.loadTable_mem (f : Vector Word 256) (n : Nat) : (s.loadTable f n).mem = s.mem := rfl
@[simp] theorem State.loadTable_rst (f : Vector Word 256) (n : Nat) : (s.loadTable f n).rst = s.rst := rfl
@[simp] theorem State.loadTable_inputs (f : Vector Word 256) (n : Nat) : (s.loadTable f n).inputs = s.inputs := rfl
@[simp] theorem State.loadTable_seen (f : Vector Word 256) (n : Nat) : (s.loadTable f n).seen = s.seen := rfl
@[simp] theorem State.loadTable_draws (f : Vector Word 256) (n : Nat) : (s.loadTable f n).draws = s.draws := rfl

/-! ## markRaced -/

@[simp] theorem State.markRaced_inflight : s.markRaced.inflight = s.inflight.map fun f => { f with raced := true } := rfl
@[simp] theorem State.markRaced_done : s.markRaced.done = s.done := rfl
@[simp] theorem State.markRaced_err : s.markRaced.err = s.err := rfl
@[simp] theorem State.markRaced_wbusy : s.markRaced.wbusy = s.wbusy := rfl
@[simp] theorem State.markRaced_errCode : s.markRaced.errCode = s.errCode := rfl
@[simp] theorem State.markRaced_tableValid : s.markRaced.tableValid = s.tableValid := rfl
@[simp] theorem State.markRaced_treeValid : s.markRaced.treeValid = s.treeValid := rfl
@[simp] theorem State.markRaced_codesValid : s.markRaced.codesValid = s.codesValid := rfl
@[simp] theorem State.markRaced_hdrValid : s.markRaced.hdrValid = s.hdrValid := rfl
@[simp] theorem State.markRaced_lastOp : s.markRaced.lastOp = s.lastOp := rfl
@[simp] theorem State.markRaced_doneIe : s.markRaced.doneIe = s.doneIe := rfl
@[simp] theorem State.markRaced_doneIp : s.markRaced.doneIp = s.doneIp := rfl
@[simp] theorem State.markRaced_srcAddr : s.markRaced.srcAddr = s.srcAddr := rfl
@[simp] theorem State.markRaced_srcLen : s.markRaced.srcLen = s.srcLen := rfl
@[simp] theorem State.markRaced_dstAddr : s.markRaced.dstAddr = s.dstAddr := rfl
@[simp] theorem State.markRaced_dstCap : s.markRaced.dstCap = s.dstCap := rfl
@[simp] theorem State.markRaced_resultLen : s.markRaced.resultLen = s.resultLen := rfl
@[simp] theorem State.markRaced_nsym : s.markRaced.nsym = s.nsym := rfl
@[simp] theorem State.markRaced_origLen : s.markRaced.origLen = s.origLen := rfl
@[simp] theorem State.markRaced_totalBits : s.markRaced.totalBits = s.totalBits := rfl
@[simp] theorem State.markRaced_finalBits : s.markRaced.finalBits = s.finalBits := rfl
@[simp] theorem State.markRaced_root : s.markRaced.root = s.root := rfl
@[simp] theorem State.markRaced_payAddr : s.markRaced.payAddr = s.payAddr := rfl
@[simp] theorem State.markRaced_payLen : s.markRaced.payLen = s.payLen := rfl
@[simp] theorem State.markRaced_payFbb : s.markRaced.payFbb = s.payFbb := rfl
@[simp] theorem State.markRaced_tblIndex : s.markRaced.tblIndex = s.tblIndex := rfl
@[simp] theorem State.markRaced_freq : s.markRaced.freq = s.freq := rfl
@[simp] theorem State.markRaced_codeLen : s.markRaced.codeLen = s.codeLen := rfl
@[simp] theorem State.markRaced_codeBits : s.markRaced.codeBits = s.codeBits := rfl
@[simp] theorem State.markRaced_arena : s.markRaced.arena = s.arena := rfl
@[simp] theorem State.markRaced_mem : s.markRaced.mem = s.mem := rfl
@[simp] theorem State.markRaced_rst : s.markRaced.rst = s.rst := rfl
@[simp] theorem State.markRaced_inputs : s.markRaced.inputs = s.inputs := rfl
@[simp] theorem State.markRaced_seen : s.markRaced.seen = s.seen := rfl
@[simp] theorem State.markRaced_draws : s.markRaced.draws = s.draws := rfl

/-! ## countDown -/

@[simp] theorem State.countDown_inflight : s.countDown.inflight = s.inflight.map fun f => { f with wait := f.wait - 1 } := rfl
@[simp] theorem State.countDown_done : s.countDown.done = s.done := rfl
@[simp] theorem State.countDown_err : s.countDown.err = s.err := rfl
@[simp] theorem State.countDown_wbusy : s.countDown.wbusy = s.wbusy := rfl
@[simp] theorem State.countDown_errCode : s.countDown.errCode = s.errCode := rfl
@[simp] theorem State.countDown_tableValid : s.countDown.tableValid = s.tableValid := rfl
@[simp] theorem State.countDown_treeValid : s.countDown.treeValid = s.treeValid := rfl
@[simp] theorem State.countDown_codesValid : s.countDown.codesValid = s.codesValid := rfl
@[simp] theorem State.countDown_hdrValid : s.countDown.hdrValid = s.hdrValid := rfl
@[simp] theorem State.countDown_lastOp : s.countDown.lastOp = s.lastOp := rfl
@[simp] theorem State.countDown_doneIe : s.countDown.doneIe = s.doneIe := rfl
@[simp] theorem State.countDown_doneIp : s.countDown.doneIp = s.doneIp := rfl
@[simp] theorem State.countDown_srcAddr : s.countDown.srcAddr = s.srcAddr := rfl
@[simp] theorem State.countDown_srcLen : s.countDown.srcLen = s.srcLen := rfl
@[simp] theorem State.countDown_dstAddr : s.countDown.dstAddr = s.dstAddr := rfl
@[simp] theorem State.countDown_dstCap : s.countDown.dstCap = s.dstCap := rfl
@[simp] theorem State.countDown_resultLen : s.countDown.resultLen = s.resultLen := rfl
@[simp] theorem State.countDown_nsym : s.countDown.nsym = s.nsym := rfl
@[simp] theorem State.countDown_origLen : s.countDown.origLen = s.origLen := rfl
@[simp] theorem State.countDown_totalBits : s.countDown.totalBits = s.totalBits := rfl
@[simp] theorem State.countDown_finalBits : s.countDown.finalBits = s.finalBits := rfl
@[simp] theorem State.countDown_root : s.countDown.root = s.root := rfl
@[simp] theorem State.countDown_payAddr : s.countDown.payAddr = s.payAddr := rfl
@[simp] theorem State.countDown_payLen : s.countDown.payLen = s.payLen := rfl
@[simp] theorem State.countDown_payFbb : s.countDown.payFbb = s.payFbb := rfl
@[simp] theorem State.countDown_tblIndex : s.countDown.tblIndex = s.tblIndex := rfl
@[simp] theorem State.countDown_freq : s.countDown.freq = s.freq := rfl
@[simp] theorem State.countDown_codeLen : s.countDown.codeLen = s.codeLen := rfl
@[simp] theorem State.countDown_codeBits : s.countDown.codeBits = s.codeBits := rfl
@[simp] theorem State.countDown_arena : s.countDown.arena = s.arena := rfl
@[simp] theorem State.countDown_mem : s.countDown.mem = s.mem := rfl
@[simp] theorem State.countDown_rst : s.countDown.rst = s.rst := rfl
@[simp] theorem State.countDown_inputs : s.countDown.inputs = s.inputs := rfl
@[simp] theorem State.countDown_seen : s.countDown.seen = s.seen := rfl
@[simp] theorem State.countDown_draws : s.countDown.draws = s.draws := rfl

/-! ## treeBuilt -/

@[simp] theorem State.treeBuilt_inflight : s.treeBuilt.inflight = s.inflight := rfl
@[simp] theorem State.treeBuilt_done : s.treeBuilt.done = s.done := rfl
@[simp] theorem State.treeBuilt_err : s.treeBuilt.err = s.err := rfl
@[simp] theorem State.treeBuilt_wbusy : s.treeBuilt.wbusy = s.wbusy := rfl
@[simp] theorem State.treeBuilt_errCode : s.treeBuilt.errCode = s.errCode := rfl
@[simp] theorem State.treeBuilt_tableValid : s.treeBuilt.tableValid = s.tableValid := rfl
@[simp] theorem State.treeBuilt_treeValid : s.treeBuilt.treeValid = true := rfl
@[simp] theorem State.treeBuilt_codesValid : s.treeBuilt.codesValid = false := rfl
@[simp] theorem State.treeBuilt_hdrValid : s.treeBuilt.hdrValid = s.hdrValid := rfl
@[simp] theorem State.treeBuilt_lastOp : s.treeBuilt.lastOp = s.lastOp := rfl
@[simp] theorem State.treeBuilt_doneIe : s.treeBuilt.doneIe = s.doneIe := rfl
@[simp] theorem State.treeBuilt_doneIp : s.treeBuilt.doneIp = s.doneIp := rfl
@[simp] theorem State.treeBuilt_srcAddr : s.treeBuilt.srcAddr = s.srcAddr := rfl
@[simp] theorem State.treeBuilt_srcLen : s.treeBuilt.srcLen = s.srcLen := rfl
@[simp] theorem State.treeBuilt_dstAddr : s.treeBuilt.dstAddr = s.dstAddr := rfl
@[simp] theorem State.treeBuilt_dstCap : s.treeBuilt.dstCap = s.dstCap := rfl
@[simp] theorem State.treeBuilt_resultLen : s.treeBuilt.resultLen = s.resultLen := rfl
@[simp] theorem State.treeBuilt_nsym : s.treeBuilt.nsym = s.nsym := rfl
@[simp] theorem State.treeBuilt_origLen : s.treeBuilt.origLen = s.origLen := rfl
@[simp] theorem State.treeBuilt_totalBits : s.treeBuilt.totalBits = s.totalBits := rfl
@[simp] theorem State.treeBuilt_finalBits : s.treeBuilt.finalBits = s.finalBits := rfl
@[simp] theorem State.treeBuilt_root : s.treeBuilt.root = (buildArena s.freq s.nsym s.draws).2 := rfl
@[simp] theorem State.treeBuilt_payAddr : s.treeBuilt.payAddr = s.payAddr := rfl
@[simp] theorem State.treeBuilt_payLen : s.treeBuilt.payLen = s.payLen := rfl
@[simp] theorem State.treeBuilt_payFbb : s.treeBuilt.payFbb = s.payFbb := rfl
@[simp] theorem State.treeBuilt_tblIndex : s.treeBuilt.tblIndex = s.tblIndex := rfl
@[simp] theorem State.treeBuilt_freq : s.treeBuilt.freq = s.freq := rfl
@[simp] theorem State.treeBuilt_codeLen : s.treeBuilt.codeLen = s.codeLen := rfl
@[simp] theorem State.treeBuilt_codeBits : s.treeBuilt.codeBits = s.codeBits := rfl
@[simp] theorem State.treeBuilt_arena : s.treeBuilt.arena = (buildArena s.freq s.nsym s.draws).1 := rfl
@[simp] theorem State.treeBuilt_mem : s.treeBuilt.mem = s.mem := rfl
@[simp] theorem State.treeBuilt_rst : s.treeBuilt.rst = s.rst := rfl
@[simp] theorem State.treeBuilt_inputs : s.treeBuilt.inputs = s.inputs := rfl
@[simp] theorem State.treeBuilt_seen : s.treeBuilt.seen = s.seen := rfl
@[simp] theorem State.treeBuilt_draws : s.treeBuilt.draws = s.draws := rfl

/-! ## loadCodes -/

@[simp] theorem State.loadCodes_inflight (t : CodeTable) : (s.loadCodes t).inflight = s.inflight := rfl
@[simp] theorem State.loadCodes_done (t : CodeTable) : (s.loadCodes t).done = s.done := rfl
@[simp] theorem State.loadCodes_err (t : CodeTable) : (s.loadCodes t).err = s.err := rfl
@[simp] theorem State.loadCodes_wbusy (t : CodeTable) : (s.loadCodes t).wbusy = s.wbusy := rfl
@[simp] theorem State.loadCodes_errCode (t : CodeTable) : (s.loadCodes t).errCode = s.errCode := rfl
@[simp] theorem State.loadCodes_tableValid (t : CodeTable) : (s.loadCodes t).tableValid = s.tableValid := rfl
@[simp] theorem State.loadCodes_treeValid (t : CodeTable) : (s.loadCodes t).treeValid = s.treeValid := rfl
@[simp] theorem State.loadCodes_codesValid (t : CodeTable) : (s.loadCodes t).codesValid = true := rfl
@[simp] theorem State.loadCodes_hdrValid (t : CodeTable) : (s.loadCodes t).hdrValid = s.hdrValid := rfl
@[simp] theorem State.loadCodes_lastOp (t : CodeTable) : (s.loadCodes t).lastOp = s.lastOp := rfl
@[simp] theorem State.loadCodes_doneIe (t : CodeTable) : (s.loadCodes t).doneIe = s.doneIe := rfl
@[simp] theorem State.loadCodes_doneIp (t : CodeTable) : (s.loadCodes t).doneIp = s.doneIp := rfl
@[simp] theorem State.loadCodes_srcAddr (t : CodeTable) : (s.loadCodes t).srcAddr = s.srcAddr := rfl
@[simp] theorem State.loadCodes_srcLen (t : CodeTable) : (s.loadCodes t).srcLen = s.srcLen := rfl
@[simp] theorem State.loadCodes_dstAddr (t : CodeTable) : (s.loadCodes t).dstAddr = s.dstAddr := rfl
@[simp] theorem State.loadCodes_dstCap (t : CodeTable) : (s.loadCodes t).dstCap = s.dstCap := rfl
@[simp] theorem State.loadCodes_resultLen (t : CodeTable) : (s.loadCodes t).resultLen = s.resultLen := rfl
@[simp] theorem State.loadCodes_nsym (t : CodeTable) : (s.loadCodes t).nsym = s.nsym := rfl
@[simp] theorem State.loadCodes_origLen (t : CodeTable) : (s.loadCodes t).origLen = s.origLen := rfl
@[simp] theorem State.loadCodes_totalBits (t : CodeTable) :
    (s.loadCodes t).totalBits = totalBitsOf s.freq t.len := rfl
@[simp] theorem State.loadCodes_finalBits (t : CodeTable) :
    (s.loadCodes t).finalBits = finalBitsOf (totalBitsOf s.freq t.len) := rfl
@[simp] theorem State.loadCodes_root (t : CodeTable) : (s.loadCodes t).root = s.root := rfl
@[simp] theorem State.loadCodes_payAddr (t : CodeTable) : (s.loadCodes t).payAddr = s.payAddr := rfl
@[simp] theorem State.loadCodes_payLen (t : CodeTable) : (s.loadCodes t).payLen = s.payLen := rfl
@[simp] theorem State.loadCodes_payFbb (t : CodeTable) : (s.loadCodes t).payFbb = s.payFbb := rfl
@[simp] theorem State.loadCodes_tblIndex (t : CodeTable) : (s.loadCodes t).tblIndex = s.tblIndex := rfl
@[simp] theorem State.loadCodes_freq (t : CodeTable) : (s.loadCodes t).freq = s.freq := rfl
@[simp] theorem State.loadCodes_codeLen (t : CodeTable) : (s.loadCodes t).codeLen = t.len := rfl
@[simp] theorem State.loadCodes_codeBits (t : CodeTable) : (s.loadCodes t).codeBits = t.bits := rfl
@[simp] theorem State.loadCodes_arena (t : CodeTable) : (s.loadCodes t).arena = s.arena := rfl
@[simp] theorem State.loadCodes_mem (t : CodeTable) : (s.loadCodes t).mem = s.mem := rfl
@[simp] theorem State.loadCodes_rst (t : CodeTable) : (s.loadCodes t).rst = s.rst := rfl
@[simp] theorem State.loadCodes_inputs (t : CodeTable) : (s.loadCodes t).inputs = s.inputs := rfl
@[simp] theorem State.loadCodes_seen (t : CodeTable) : (s.loadCodes t).seen = s.seen := rfl
@[simp] theorem State.loadCodes_draws (t : CodeTable) : (s.loadCodes t).draws = s.draws := rfl

/-! ## emitted -/

@[simp] theorem State.emitted_inflight : s.emitted.inflight = s.inflight := rfl
@[simp] theorem State.emitted_done : s.emitted.done = s.done := rfl
@[simp] theorem State.emitted_err : s.emitted.err = s.err := rfl
@[simp] theorem State.emitted_wbusy : s.emitted.wbusy = s.wbusy := rfl
@[simp] theorem State.emitted_errCode : s.emitted.errCode = s.errCode := rfl
@[simp] theorem State.emitted_tableValid : s.emitted.tableValid = s.tableValid := rfl
@[simp] theorem State.emitted_treeValid : s.emitted.treeValid = s.treeValid := rfl
@[simp] theorem State.emitted_codesValid : s.emitted.codesValid = s.codesValid := rfl
@[simp] theorem State.emitted_hdrValid : s.emitted.hdrValid = s.hdrValid := rfl
@[simp] theorem State.emitted_lastOp : s.emitted.lastOp = s.lastOp := rfl
@[simp] theorem State.emitted_doneIe : s.emitted.doneIe = s.doneIe := rfl
@[simp] theorem State.emitted_doneIp : s.emitted.doneIp = s.doneIp := rfl
@[simp] theorem State.emitted_srcAddr : s.emitted.srcAddr = s.srcAddr := rfl
@[simp] theorem State.emitted_srcLen : s.emitted.srcLen = s.srcLen := rfl
@[simp] theorem State.emitted_dstAddr : s.emitted.dstAddr = s.dstAddr := rfl
@[simp] theorem State.emitted_dstCap : s.emitted.dstCap = s.dstCap := rfl
@[simp] theorem State.emitted_resultLen : s.emitted.resultLen = BitVec.ofNat 32 s.emitSize := rfl
@[simp] theorem State.emitted_nsym : s.emitted.nsym = s.nsym := rfl
@[simp] theorem State.emitted_origLen : s.emitted.origLen = s.origLen := rfl
@[simp] theorem State.emitted_totalBits : s.emitted.totalBits = if s.emptyTable then 0 else s.totalBits := rfl
@[simp] theorem State.emitted_finalBits : s.emitted.finalBits = if s.emptyTable then 0 else s.finalBits := rfl
@[simp] theorem State.emitted_root : s.emitted.root = s.root := rfl
@[simp] theorem State.emitted_payAddr : s.emitted.payAddr = s.payAddr := rfl
@[simp] theorem State.emitted_payLen : s.emitted.payLen = s.payLen := rfl
@[simp] theorem State.emitted_payFbb : s.emitted.payFbb = s.payFbb := rfl
@[simp] theorem State.emitted_tblIndex : s.emitted.tblIndex = s.tblIndex := rfl
@[simp] theorem State.emitted_freq : s.emitted.freq = s.freq := rfl
@[simp] theorem State.emitted_codeLen : s.emitted.codeLen = s.codeLen := rfl
@[simp] theorem State.emitted_codeBits : s.emitted.codeBits = s.codeBits := rfl
@[simp] theorem State.emitted_arena : s.emitted.arena = s.arena := rfl
@[simp] theorem State.emitted_mem : s.emitted.mem = s.emitMem := rfl
@[simp] theorem State.emitted_rst : s.emitted.rst = s.rst := rfl
@[simp] theorem State.emitted_inputs : s.emitted.inputs = s.inputs := rfl
@[simp] theorem State.emitted_seen : s.emitted.seen = s.seen := rfl
@[simp] theorem State.emitted_draws : s.emitted.draws = s.draws := rfl

/-! ## loadHeader -/

@[simp] theorem State.loadHeader_inflight (h : Header) : (s.loadHeader h).inflight = s.inflight := rfl
@[simp] theorem State.loadHeader_done (h : Header) : (s.loadHeader h).done = s.done := rfl
@[simp] theorem State.loadHeader_err (h : Header) : (s.loadHeader h).err = s.err := rfl
@[simp] theorem State.loadHeader_wbusy (h : Header) : (s.loadHeader h).wbusy = s.wbusy := rfl
@[simp] theorem State.loadHeader_errCode (h : Header) : (s.loadHeader h).errCode = s.errCode := rfl
@[simp] theorem State.loadHeader_tableValid (h : Header) : (s.loadHeader h).tableValid = true := rfl
@[simp] theorem State.loadHeader_treeValid (h : Header) : (s.loadHeader h).treeValid = false := rfl
@[simp] theorem State.loadHeader_codesValid (h : Header) : (s.loadHeader h).codesValid = false := rfl
@[simp] theorem State.loadHeader_hdrValid (h : Header) : (s.loadHeader h).hdrValid = true := rfl
@[simp] theorem State.loadHeader_lastOp (h : Header) : (s.loadHeader h).lastOp = s.lastOp := rfl
@[simp] theorem State.loadHeader_doneIe (h : Header) : (s.loadHeader h).doneIe = s.doneIe := rfl
@[simp] theorem State.loadHeader_doneIp (h : Header) : (s.loadHeader h).doneIp = s.doneIp := rfl
@[simp] theorem State.loadHeader_srcAddr (h : Header) : (s.loadHeader h).srcAddr = s.srcAddr := rfl
@[simp] theorem State.loadHeader_srcLen (h : Header) : (s.loadHeader h).srcLen = s.srcLen := rfl
@[simp] theorem State.loadHeader_dstAddr (h : Header) : (s.loadHeader h).dstAddr = s.dstAddr := rfl
@[simp] theorem State.loadHeader_dstCap (h : Header) : (s.loadHeader h).dstCap = s.dstCap := rfl
@[simp] theorem State.loadHeader_resultLen (h : Header) : (s.loadHeader h).resultLen = s.resultLen := rfl
@[simp] theorem State.loadHeader_nsym (h : Header) : (s.loadHeader h).nsym = BitVec.ofNat 9 h.nsym := rfl
@[simp] theorem State.loadHeader_origLen (h : Header) :
    (s.loadHeader h).origLen = BitVec.ofNat 64 h.orig := rfl
@[simp] theorem State.loadHeader_totalBits (h : Header) : (s.loadHeader h).totalBits = s.totalBits := rfl
@[simp] theorem State.loadHeader_finalBits (h : Header) : (s.loadHeader h).finalBits = s.finalBits := rfl
@[simp] theorem State.loadHeader_root (h : Header) : (s.loadHeader h).root = s.root := rfl
@[simp] theorem State.loadHeader_payAddr (h : Header) :
    (s.loadHeader h).payAddr = BitVec.ofNat 32 (s.srcAddr.toNat + headerLen h.nsym) := rfl
@[simp] theorem State.loadHeader_payLen (h : Header) :
    (s.loadHeader h).payLen = BitVec.ofNat 32 (s.srcLen.toNat - headerLen h.nsym) := rfl
@[simp] theorem State.loadHeader_payFbb (h : Header) : (s.loadHeader h).payFbb = BitVec.ofNat 4 h.fbb := rfl
@[simp] theorem State.loadHeader_tblIndex (h : Header) : (s.loadHeader h).tblIndex = s.tblIndex := rfl
@[simp] theorem State.loadHeader_freq (h : Header) : (s.loadHeader h).freq = h.freq := rfl
@[simp] theorem State.loadHeader_codeLen (h : Header) : (s.loadHeader h).codeLen = s.codeLen := rfl
@[simp] theorem State.loadHeader_codeBits (h : Header) : (s.loadHeader h).codeBits = s.codeBits := rfl
@[simp] theorem State.loadHeader_arena (h : Header) : (s.loadHeader h).arena = s.arena := rfl
@[simp] theorem State.loadHeader_mem (h : Header) : (s.loadHeader h).mem = s.mem := rfl
@[simp] theorem State.loadHeader_rst (h : Header) : (s.loadHeader h).rst = s.rst := rfl
@[simp] theorem State.loadHeader_inputs (h : Header) : (s.loadHeader h).inputs = s.inputs := rfl
@[simp] theorem State.loadHeader_seen (h : Header) : (s.loadHeader h).seen = s.seen := rfl
@[simp] theorem State.loadHeader_draws (h : Header) : (s.loadHeader h).draws = s.draws := rfl

/-! ## decoded -/

@[simp] theorem State.decoded_inflight (out : List Byte) : (s.decoded out).inflight = s.inflight := rfl
@[simp] theorem State.decoded_done (out : List Byte) : (s.decoded out).done = s.done := rfl
@[simp] theorem State.decoded_err (out : List Byte) : (s.decoded out).err = s.err := rfl
@[simp] theorem State.decoded_wbusy (out : List Byte) : (s.decoded out).wbusy = s.wbusy := rfl
@[simp] theorem State.decoded_errCode (out : List Byte) : (s.decoded out).errCode = s.errCode := rfl
@[simp] theorem State.decoded_tableValid (out : List Byte) : (s.decoded out).tableValid = s.tableValid := rfl
@[simp] theorem State.decoded_treeValid (out : List Byte) : (s.decoded out).treeValid = s.treeValid := rfl
@[simp] theorem State.decoded_codesValid (out : List Byte) : (s.decoded out).codesValid = s.codesValid := rfl
@[simp] theorem State.decoded_hdrValid (out : List Byte) : (s.decoded out).hdrValid = s.hdrValid := rfl
@[simp] theorem State.decoded_lastOp (out : List Byte) : (s.decoded out).lastOp = s.lastOp := rfl
@[simp] theorem State.decoded_doneIe (out : List Byte) : (s.decoded out).doneIe = s.doneIe := rfl
@[simp] theorem State.decoded_doneIp (out : List Byte) : (s.decoded out).doneIp = s.doneIp := rfl
@[simp] theorem State.decoded_srcAddr (out : List Byte) : (s.decoded out).srcAddr = s.srcAddr := rfl
@[simp] theorem State.decoded_srcLen (out : List Byte) : (s.decoded out).srcLen = s.srcLen := rfl
@[simp] theorem State.decoded_dstAddr (out : List Byte) : (s.decoded out).dstAddr = s.dstAddr := rfl
@[simp] theorem State.decoded_dstCap (out : List Byte) : (s.decoded out).dstCap = s.dstCap := rfl
@[simp] theorem State.decoded_resultLen (out : List Byte) :
    (s.decoded out).resultLen = s.origLen.setWidth 32 := rfl
@[simp] theorem State.decoded_nsym (out : List Byte) : (s.decoded out).nsym = s.nsym := rfl
@[simp] theorem State.decoded_origLen (out : List Byte) : (s.decoded out).origLen = s.origLen := rfl
@[simp] theorem State.decoded_totalBits (out : List Byte) : (s.decoded out).totalBits = s.totalBits := rfl
@[simp] theorem State.decoded_finalBits (out : List Byte) : (s.decoded out).finalBits = s.finalBits := rfl
@[simp] theorem State.decoded_root (out : List Byte) : (s.decoded out).root = s.root := rfl
@[simp] theorem State.decoded_payAddr (out : List Byte) : (s.decoded out).payAddr = s.payAddr := rfl
@[simp] theorem State.decoded_payLen (out : List Byte) : (s.decoded out).payLen = s.payLen := rfl
@[simp] theorem State.decoded_payFbb (out : List Byte) : (s.decoded out).payFbb = s.payFbb := rfl
@[simp] theorem State.decoded_tblIndex (out : List Byte) : (s.decoded out).tblIndex = s.tblIndex := rfl
@[simp] theorem State.decoded_freq (out : List Byte) : (s.decoded out).freq = s.freq := rfl
@[simp] theorem State.decoded_codeLen (out : List Byte) : (s.decoded out).codeLen = s.codeLen := rfl
@[simp] theorem State.decoded_codeBits (out : List Byte) : (s.decoded out).codeBits = s.codeBits := rfl
@[simp] theorem State.decoded_arena (out : List Byte) : (s.decoded out).arena = s.arena := rfl
@[simp] theorem State.decoded_mem (out : List Byte) :
    (s.decoded out).mem = s.mem.writeBytes s.dstAddr.toNat out := rfl
@[simp] theorem State.decoded_rst (out : List Byte) : (s.decoded out).rst = s.rst := rfl
@[simp] theorem State.decoded_inputs (out : List Byte) : (s.decoded out).inputs = s.inputs := rfl
@[simp] theorem State.decoded_seen (out : List Byte) : (s.decoded out).seen = s.seen := rfl
@[simp] theorem State.decoded_draws (out : List Byte) : (s.decoded out).draws = s.draws := rfl

end Sys2Proof.Machine
end

