-- ==== Sys2Proof/Laws/Tables.lean ====
section
/-! SUPPORT. Tables indexed by a symbol, the present symbols of a frequency table, and sets of symbols. -/

namespace Sys2Proof.Machine

theorem length_allSyms : allSyms.length = 256 := by simp [allSyms]

theorem getElem_allSyms (i : Nat) (h : i < allSyms.length) : allSyms[i] = BitVec.ofNat 8 i := by
  simp [allSyms]

theorem mem_allSyms (b : Byte) : b ∈ allSyms := by
  simp only [allSyms, List.mem_map, List.mem_range]
  exact ⟨b.toNat, b.isLt, by simp⟩

/-- Entry b of a table is entry b.toNat of its list. -/
theorem tget_eq_getElem {α : Type} (t : Vector α 256) (b : Byte) :
    tget t b = t.toList[b.toNat]'(by simpa using b.isLt) := rfl

@[simp] theorem tget_tabulate {α : Type} (f : Byte → α) (b : Byte) : tget (tabulate f) b = f b := by
  rw [tget_eq_getElem]
  have h : (tabulate f).toList = allSyms.map f := rfl
  simp only [h, List.getElem_map, getElem_allSyms, BitVec.ofNat_toNat, BitVec.setWidth_eq]

/-- Two tables that agree in every entry are equal. -/
theorem table_ext {α : Type} (t u : Vector α 256) (h : ∀ b, tget t b = tget u b) : t = u := by
  apply Vector.ext
  intro i hi
  have := h (BitVec.ofNat 8 i)
  simpa [tget, Vector.get, Nat.mod_eq_of_lt hi] using this

theorem tget_tset {α : Type} (t : Vector α 256) (b c : Byte) (v : α) :
    tget (tset t b v) c = if b = c then v else tget t c := by
  have h : (b.toNat = c.toNat) ↔ b = c := ⟨BitVec.eq_of_toNat_eq, fun h => h ▸ rfl⟩
  simp only [tget_eq_getElem, tset, Vector.toList_set, List.getElem_set, h]

theorem tableEq_iff (f g : Vector Word 256) : tableEq f g = true ↔ f = g := by
  simp only [tableEq, decide_eq_true_eq]
  exact ⟨fun h => Vector.toList_inj.mp h, fun h => h ▸ rfl⟩

/-- Entry b of a histogram counts b; it is exact below 2^32 (R133). -/
theorem tget_histogram (bs : List Byte) (b : Byte) :
    tget (histogram bs) b = BitVec.ofNat 32 (bs.count b) := by
  simp [histogram]

theorem zip_allSyms_toList (freq : Vector Word 256) :
    allSyms.zip freq.toList = allSyms.map fun b => (b, tget freq b) := by
  apply List.ext_getElem
  · simp [length_allSyms]
  · intro i h1 h2
    have hi : i < 256 := by simpa [length_allSyms] using h2
    simp only [List.getElem_zip, List.getElem_map, getElem_allSyms, tget_eq_getElem,
      BitVec.toNat_ofNat, Nat.reducePow, Nat.mod_eq_of_lt hi]

/-- The present symbols are the symbols with a non-zero entry, ascending. -/
theorem present_eq_filter (freq : Vector Word 256) :
    present freq = allSyms.filter fun b => tget freq b ≠ 0 := by
  unfold present
  rw [zip_allSyms_toList, List.filter_map, List.map_map]
  simp only [Function.comp_def, List.map_id']

theorem mem_present (freq : Vector Word 256) (b : Byte) : b ∈ present freq ↔ tget freq b ≠ 0 := by
  simp [present_eq_filter, mem_allSyms]

theorem length_present_le (freq : Vector Word 256) : (present freq).length ≤ 256 := by
  rw [present_eq_filter, ← length_allSyms]
  exact List.length_filter_le _ _

/-- The symbols in ascending order have no repeats. -/
theorem pairwise_allSyms : allSyms.Pairwise (· < ·) := by
  rw [allSyms, List.pairwise_map]
  refine List.Pairwise.imp_of_mem ?_ (List.pairwise_lt_range (n := 256))
  intro a b ha hb h
  have ha' := List.mem_range.mp ha
  have hb' := List.mem_range.mp hb
  rw [BitVec.lt_def]
  simp only [BitVec.toNat_ofNat, Nat.reducePow, Nat.mod_eq_of_lt ha', Nat.mod_eq_of_lt hb', h]

theorem pairwise_present (freq : Vector Word 256) : (present freq).Pairwise (· < ·) := by
  rw [present_eq_filter]
  exact pairwise_allSyms.filter _

theorem totalCount_eq_sum (freq : Vector Word 256) :
    totalCount freq = (allSyms.map fun b => (tget freq b).toNat).sum := by
  unfold totalCount
  congr 1
  apply List.ext_getElem
  · simp [length_allSyms]
  · intro i h1 h2
    have hi : i < 256 := by simpa [length_allSyms] using h2
    simp only [List.getElem_map, getElem_allSyms, tget_eq_getElem, BitVec.toNat_ofNat,
      Nat.reducePow, Nat.mod_eq_of_lt hi]

theorem codedBits_eq_sum (freq : Vector Word 256) (codeLen : Vector Byte 256) :
    codedBits freq codeLen = (allSyms.map fun b => (tget freq b).toNat * (tget codeLen b).toNat).sum := by
  unfold codedBits
  congr 1
  apply List.ext_getElem
  · simp [length_allSyms]
  · intro i h1 h2
    have hi : i < 256 := by simpa [length_allSyms] using h2
    simp only [List.getElem_zipWith, List.getElem_map, getElem_allSyms, tget_eq_getElem,
      BitVec.toNat_ofNat, Nat.reducePow, Nat.mod_eq_of_lt hi]

/-! ## Sets of symbols -/

theorem mem_insertSym (b c : Byte) (cs : List Byte) : b ∈ insertSym c cs ↔ b = c ∨ b ∈ cs := by
  induction cs with
  | nil => simp [insertSym]
  | cons d ds ih =>
    unfold insertSym
    split_ifs with h1 h2
    · simp
    · subst h2; simp
    · simp only [List.mem_cons, ih]; tauto

theorem mem_unionSyms (b : Byte) (as bs : List Byte) : b ∈ unionSyms as bs ↔ b ∈ as ∨ b ∈ bs := by
  induction as with
  | nil => simp [unionSyms]
  | cons a as ih =>
    have : unionSyms (a :: as) bs = insertSym a (unionSyms as bs) := rfl
    rw [this, mem_insertSym, ih, List.mem_cons]
    tauto

theorem pairwise_insertSym (c : Byte) (cs : List Byte) (h : cs.Pairwise (· < ·)) :
    (insertSym c cs).Pairwise (· < ·) := by
  induction cs with
  | nil => simp [insertSym]
  | cons d ds ih =>
    rw [List.pairwise_cons] at h
    unfold insertSym
    split_ifs with h1 h2
    · refine List.pairwise_cons.mpr ⟨?_, List.pairwise_cons.mpr h⟩
      intro x hx
      rcases List.mem_cons.mp hx with rfl | hx
      · exact h1
      · exact BitVec.lt_trans h1 (h.1 x hx)
    · exact List.pairwise_cons.mpr h
    · refine List.pairwise_cons.mpr ⟨?_, ih h.2⟩
      intro x hx
      rcases (mem_insertSym x c ds).mp hx with rfl | hx
      · have : x.toNat ≠ d.toNat := fun h => h2 (BitVec.eq_of_toNat_eq h)
        rw [BitVec.lt_def] at h1 ⊢
        omega
      · exact h.1 x hx

/-- The union of two ascending contents is ascending and without repeats. -/
theorem pairwise_unionSyms (as bs : List Byte) (h : bs.Pairwise (· < ·)) :
    (unionSyms as bs).Pairwise (· < ·) := by
  induction as with
  | nil => exact h
  | cons a as ih => exact pairwise_insertSym a _ ih

end Sys2Proof.Machine
end

