-- ==== Sys2Proof/Laws/Commands.lean ====
section
/-! SUPPORT. The shared operations of the commands: what `finish`, the composition of runs and a raise can
answer, said once. -/

namespace Sys2Proof.Machine

/-! ## Runs -/

@[simp] theorem Run.andThen_ok (s : State) (k : State → Run) : (Run.ok s).andThen k = k s := rfl

@[simp] theorem Run.andThen_raise (e : ErrCode) (s : State) (k : State → Run) :
    (Run.raise e s).andThen k = .raise e s := rfl

@[simp] theorem Run.zeroLength_ok (s : State) : (Run.ok s).zeroLength = .ok s := rfl

@[simp] theorem Run.zeroLength_raise (e : ErrCode) (s : State) :
    (Run.raise e s).zeroLength = .raise e { s with resultLen := 0 } := rfl

@[simp] theorem Run.complete_ok (s : State) : (Run.ok s).complete = s.completeOk := rfl

@[simp] theorem Run.complete_raise (e : ErrCode) (s : State) :
    (Run.raise e s).complete = s.takeError e := rfl

/-- A composite that ends well: every step did. -/
theorem Run.andThen_eq_ok (r : Run) (k : State → Run) (t : State) :
    r.andThen k = .ok t ↔ ∃ s, r = .ok s ∧ k s = .ok t := by
  cases r <;> simp

/-- A composite that raises: the first step that raised did. -/
theorem Run.andThen_eq_raise (r : Run) (k : State → Run) (e : ErrCode) (t : State) :
    r.andThen k = .raise e t ↔ r = .raise e t ∨ ∃ s, r = .ok s ∧ k s = .raise e t := by
  cases r <;> simp

theorem Run.zeroLength_eq_ok (r : Run) (t : State) : r.zeroLength = .ok t ↔ r = .ok t := by
  cases r <;> simp

theorem Run.zeroLength_eq_raise (r : Run) (e : ErrCode) (t : State) :
    r.zeroLength = .raise e t ↔ ∃ s, r = .raise e s ∧ t = { s with resultLen := 0 } := by
  cases r with
  | ok s => simp
  | raise e' s =>
    simp only [Run.zeroLength_raise, Run.raise.injEq]
    constructor
    · rintro ⟨rfl, rfl⟩; exact ⟨s, ⟨rfl, rfl⟩, rfl⟩
    · rintro ⟨_, ⟨rfl, rfl⟩, rfl⟩; exact ⟨rfl, rfl⟩

/-! ## The completion step -/

theorem finish_unraced (fp : Footprint) (s : State) (r : Run) (h : s.raced = false) :
    finish fp s r = .next r.complete := by simp [finish, h]

theorem finish_raced (fp : Footprint) (s : State) (r : Run) (h : s.raced = true) :
    finish fp s r = .next (raceComplete fp s) := by simp [finish, h]

/-- Everything a completion step can answer. -/
theorem finish_cases (fp : Footprint) (s : State) (r : Run) :
    (s.raced = false ∧ finish fp s r = .next r.complete) ∨
    (s.raced = true ∧ finish fp s r = .next (raceComplete fp s)) := by
  cases h : s.raced
  · exact .inl ⟨rfl, finish_unraced fp s r h⟩
  · exact .inr ⟨rfl, finish_raced fp s r h⟩

/-- No command's completion step stops the machine. -/
theorem exec_answers_next (i : Instr) (s : State) : ∃ t, exec i s = .next t := by
  cases i <;> exact ⟨_, rfl⟩

/-- A completion step ends the command: BUSY = 0, DONE = 1, DONE_IP = 1. -/
theorem Run.complete_status (r : Run) :
    r.complete.inflight = none ∧ r.complete.done = true ∧ r.complete.doneIp = true := by
  cases r <;> simp

/-! ## The race -/

/-- A raced completion leaves every byte outside the destination window. -/
theorem read_raceComplete_outside (fp : Footprint) (s : State) (a : Nat)
    (h : s.dstWindow.contains a = false) : (raceComplete fp s).mem.read a = s.mem.read a := by
  unfold raceComplete scramble
  simp only
  split
  · exact State.read_scrambleDst_outside s a h
  · rfl

theorem wf_raceComplete (fp : Footprint) (s : State) (h : s.mem.wf = true) :
    (raceComplete fp s).mem.wf = true := by
  unfold raceComplete scramble
  simp only
  split
  · exact Memory.wf_scramble _ _ _ _ h
  · exact h

/-- A drawn error code is NONE or one of the list. -/
theorem freeErr_mem (errs : List ErrCode) (seed : Nat) :
    freeErr errs seed = .none ∨ freeErr errs seed ∈ errs := by
  unfold freeErr
  rw [List.getD_eq_getElem?_getD]
  cases h : errs[(Config.draw 8 seed .errCode 0).toNat]? with
  | none => exact .inl rfl
  | some e => exact .inr (List.mem_of_getElem? h)

theorem length_freeArena_le (seed : Nat) : (freeArena seed).length ≤ 511 := by
  have := (Config.draw 9 seed .arenaLen 0).isLt
  simp only [freeArena, List.length_map, List.length_range]
  omega

/-! ## One lemma per command: what its pseudocode can answer -/

theorem runCount_cases (s : State) :
    (s.srcWindow.inRange = true ∧
      runCount s = .ok (s.loadTable (histogram s.srcBytes) s.srcLen.toNat).flagsTable) ∨
    (s.srcWindow.inRange = false ∧ runCount s = .raise .addressRange s) := by
  unfold runCount
  cases h : s.srcWindow.inRange
  · exact .inr ⟨rfl, by simp⟩
  · exact .inl ⟨rfl, by simp⟩

theorem runBuildTree_cases (s : State) :
    (s.tableValid = false ∧ runBuildTree s = .raise .sequence s) ∨
    (s.tableValid = true ∧ s.nsym = 0 ∧ runBuildTree s = .raise .emptyTable s) ∨
    (s.tableValid = true ∧ s.nsym ≠ 0 ∧ runBuildTree s = .ok s.treeBuilt) := by
  unfold runBuildTree
  by_cases h : s.tableValid = false
  · exact .inl ⟨h, if_pos h⟩
  · have ht : s.tableValid = true := by simpa using h
    by_cases h0 : s.nsym = 0
    · exact .inr (.inl ⟨ht, h0, by rw [if_neg h, if_pos h0]⟩)
    · exact .inr (.inr ⟨ht, h0, by rw [if_neg h, if_neg h0]⟩)

theorem runAssignCodes_cases (s : State) :
    (s.treeValid = false ∧ runAssignCodes s = .raise .sequence s) ∨
    (s.treeValid = true ∧ runAssignCodes s = .ok (s.loadCodes (codesOf s.arena s.root s.draws))) := by
  unfold runAssignCodes
  cases h : s.treeValid
  · exact .inl ⟨rfl, by simp⟩
  · exact .inr ⟨rfl, by simp⟩

/-! ### What EMIT_STREAM writes -/

@[simp] theorem length_beBytes (n v : Nat) : (beBytes n v).length = n := by simp [beBytes]

theorem length_entryBytes (freq : Vector Word 256) : (entryBytes freq).length = 5 * (present freq).length := by
  simp [entryBytes, List.length_flatMap, Nat.mul_comm]

theorem length_headerStart (freq : Vector Word 256) (nsym orig : Nat) :
    (headerStart freq nsym orig).length = 12 + 5 * (present freq).length := by
  simp [headerStart, length_entryBytes]
  omega

theorem State.wf_emitMem (s : State) (h : s.mem.wf = true) : s.emitMem.wf = true :=
  Memory.wf_writeBytes _ _ _ (Memory.wf_writeBytes _ _ _ h)

/-- EMIT_STREAM writes nothing outside [DST_ADDR, DST_ADDR + size), whatever the tables (R183). -/
theorem State.read_emitMem_outside (s : State) (a : Nat)
    (h : a < s.dstAddr.toNat ∨ s.dstAddr.toNat + s.emitSize ≤ a) : s.emitMem.read a = s.mem.read a := by
  have hl : headerLen s.nsym.toNat - 1 ≤ s.emitSize := by unfold State.emitSize; omega
  unfold State.emitMem
  rw [Memory.read_writeBytes_outside _ _ _ _ (by simp only [List.length_take]; omega),
    Memory.read_writeBytes_outside _ _ _ _ (by simp only [List.length_take]; omega)]

/-- Where NSYM and TOTAL_BITS belong to FREQ and the codes, the two pieces are one stream: the header and the
payload (R185, R186). -/
theorem State.emitMem_eq (s : State) (hn : (present s.freq).length = s.nsym.toNat)
    (hp : (packBits s.emitBits).length = ceil8 s.emitTotalBits) :
    s.emitMem = s.mem.writeBytes s.dstAddr.toNat
      (headerBytes s.freq s.nsym.toNat s.origLen.toNat s.emitFinalBits ++ packBits s.emitBits) := by
  have hs := length_headerStart s.freq s.nsym.toNat s.origLen.toNat
  simp only [State.emitMem, State.emitSize, headerBytes]
  rw [List.append_assoc, Memory.writeBytes_append, List.take_of_length_le (by unfold headerLen; omega),
    List.take_of_length_le (by simp only [List.length_cons, headerLen]; omega)]
  rw [hs, hn, List.singleton_append, show headerLen s.nsym.toNat - 1 = 12 + 5 * s.nsym.toNat by
    unfold headerLen; omega]

/-- EMIT_STREAM: a raise that leaves memory alone, INPUT_MISMATCH, or the stream. -/
theorem runEmitStream_cases (s : State) :
    (∃ e, e ∈ ([.sequence, .addressRange, .overlap, .outputOverflow] : List ErrCode) ∧
      runEmitStream s = .raise e { s with resultLen := 0 }) ∨
    (runEmitStream s = .raise .inputMismatch { s with mem := s.scrambleDst, resultLen := 0 }) ∨
    ((s.codesValid = true ∨ s.emptyTable = true) ∧ s.srcWindow.inRange = true ∧
      s.dstWindow.inRange = true ∧ s.srcWindow.overlaps s.dstWindow = false ∧
      s.emitSize ≤ s.dstCap.toNat ∧ histogram s.srcBytes = s.freq ∧ runEmitStream s = .ok s.emitted) := by
  unfold runEmitStream
  split_ifs with h1 h2 h3 h4 h5
  · exact .inl ⟨.sequence, by simp, rfl⟩
  · exact .inl ⟨.addressRange, by simp, rfl⟩
  · exact .inl ⟨.overlap, by simp, rfl⟩
  · exact .inl ⟨.outputOverflow, by simp, rfl⟩
  · exact .inr (.inl rfl)
  · have h1' : s.codesValid = true ∨ s.emptyTable = true := by
      cases hc : s.codesValid <;> simp_all
    have h2' : s.srcWindow.inRange = true ∧ s.dstWindow.inRange = true := by simpa using h2
    have h5' : tableEq (histogram s.srcBytes) s.freq = true := by simpa using h5
    exact .inr (.inr ⟨h1', h2'.1, h2'.2, by simpa using h3, by omega, (tableEq_iff _ _).mp h5', rfl⟩)

theorem runParseHeader_cases (s : State) :
    (s.srcWindow.inRange = false ∧ runParseHeader s = .raise .addressRange s) ∨
    (s.srcWindow.inRange = true ∧
      ∃ e, parseHeader s.mem s.srcAddr.toNat s.srcLen.toNat = .error e ∧
        runParseHeader s = .raise e s.corruptHeader) ∨
    (s.srcWindow.inRange = true ∧
      ∃ h, parseHeader s.mem s.srcAddr.toNat s.srcLen.toNat = .ok h ∧
        runParseHeader s = .ok (s.loadHeader h)) := by
  unfold runParseHeader
  cases hr : s.srcWindow.inRange
  · exact .inl ⟨rfl, by simp⟩
  · cases hp : parseHeader s.mem s.srcAddr.toNat s.srcLen.toNat with
    | error e => exact .inr (.inl ⟨rfl, e, rfl, by simp⟩)
    | ok h => exact .inr (.inr ⟨rfl, h, rfl, by simp⟩)

/-- DECODE_PAYLOAD: a raise that leaves memory alone, a CORRUPT_* raise, or the output. -/
theorem runDecodePayload_cases (s : State) :
    (∃ e, e ∈ ([.sequence, .addressRange, .overlap, .outputOverflow] : List ErrCode) ∧
      runDecodePayload s = .raise e { s with resultLen := 0 }) ∨
    (∃ e, s.decodeOutput = .error e ∧
      runDecodePayload s = .raise e { s with mem := s.scrambleDst, resultLen := 0 }) ∨
    (∃ out, s.decodeOutput = .ok out ∧ s.hdrValid = true ∧ (s.nsym = 0 ∨ s.treeValid = true) ∧
      s.payWindow.inRange = true ∧ s.dstWindow.inRange = true ∧
      s.payWindow.overlaps s.dstWindow = false ∧ s.origLen.toNat ≤ s.dstCap.toNat ∧
      runDecodePayload s = .ok (s.decoded out)) := by
  unfold runDecodePayload
  split_ifs with h1 h2 h3 h4
  · exact .inl ⟨.sequence, by simp, rfl⟩
  · exact .inl ⟨.addressRange, by simp, rfl⟩
  · exact .inl ⟨.overlap, by simp, rfl⟩
  · exact .inl ⟨.outputOverflow, by simp, rfl⟩
  · cases ho : s.decodeOutput with
    | error e => exact .inr (.inl ⟨e, rfl, rfl⟩)
    | ok out =>
      have h2' : s.payWindow.inRange = true ∧ s.dstWindow.inRange = true := by simpa using h2
      refine .inr (.inr ⟨out, rfl, ?_, ?_, h2'.1, h2'.2, by simpa using h3, by omega, rfl⟩)
      · cases hv : s.hdrValid <;> simp_all
      · cases ht : s.treeValid <;> simp_all

end Sys2Proof.Machine
end

