-- ==== Sys2Proof/Laws/PerInstr.lean ====
section
/-! SUPPORT. The statements made of every command as syntax: one lemma a constructor. -/

namespace Sys2Proof.Laws

/-- OpcodeLegal: the command is well formed, its word is legal (30_encoding.md R82), and the word is its
opcode zero-extended (R81). -/
def OpcodeLegal.Statement (i : Instr) : Prop :=
  i.wellFormed = true ∧ commandWordWf (encode i) = true ∧ encode i = i.opcode.setWidth 32

theorem OpcodeLegal.clear : OpcodeLegal.Statement .clear := by unfold OpcodeLegal.Statement; decide
theorem OpcodeLegal.count : OpcodeLegal.Statement .count := by unfold OpcodeLegal.Statement; decide
theorem OpcodeLegal.buildTree : OpcodeLegal.Statement .buildTree := by unfold OpcodeLegal.Statement; decide
theorem OpcodeLegal.assignCodes : OpcodeLegal.Statement .assignCodes := by unfold OpcodeLegal.Statement; decide
theorem OpcodeLegal.emitStream : OpcodeLegal.Statement .emitStream := by unfold OpcodeLegal.Statement; decide
theorem OpcodeLegal.parseHeader : OpcodeLegal.Statement .parseHeader := by unfold OpcodeLegal.Statement; decide
theorem OpcodeLegal.decodePayload : OpcodeLegal.Statement .decodePayload := by
  unfold OpcodeLegal.Statement; decide
theorem OpcodeLegal.encode : OpcodeLegal.Statement .encode := by unfold OpcodeLegal.Statement; decide
theorem OpcodeLegal.decode : OpcodeLegal.Statement .decode := by unfold OpcodeLegal.Statement; decide

end Sys2Proof.Laws
end

