-- ==== Sys2Proof/Laws/Step.lean ====
section
/-! SUPPORT. What one step can be: a completion step, or a turn of the outside world with at most one event. -/

namespace Sys2Proof.Machine

@[simp] theorem State.busy_eq (s : State) : s.busy = s.inflight.isSome := rfl

theorem State.turn_nil (s : State) (h : s.inputs = []) : s.turn = s := by simp [State.turn, h]

theorem State.turn_cons (s : State) (e : HostEvent) (rest : List HostEvent) (h : s.inputs = e :: rest) :
    s.turn = { s with inputs := rest }.event e := by simp [State.turn, h]

/-- Everything a step can do: a turn while idle, a completion step, a turn while a command waits. -/
theorem step_cases (s : State) :
    (s.inflight = none ∧ step s = .next s.turn) ∨
    (∃ f, s.inflight = some f ∧ f.wait = 0 ∧ step s = runWord f.word s) ∨
    (∃ f, s.inflight = some f ∧ f.wait ≠ 0 ∧ step s = .next s.countDown.turn) := by
  cases h : s.inflight with
  | none => exact .inl ⟨rfl, by simp [step, h]⟩
  | some f =>
    by_cases hw : f.wait = 0
    · exact .inr (.inl ⟨f, rfl, hw, by simp [step, h, hw]⟩)
    · exact .inr (.inr ⟨f, rfl, hw, by simp [step, h, hw]⟩)

theorem runWord_ok (w : Word) (s : State) (i : Instr) (h : decodeWord w = .ok i) : runWord w s = exec i s := by
  simp [runWord, h]

theorem runWord_error (w : Word) (s : State) (e : DecodeError) (h : decodeWord w = .error e) :
    runWord w s = .next s.completeIllegal := by
  simp [runWord, h]

/-- A completion step is a command's or the illegal word's. -/
theorem runWord_cases (w : Word) (s : State) :
    (∃ i, decodeWord w = .ok i ∧ runWord w s = exec i s) ∨
    (∃ e, decodeWord w = .error e ∧ runWord w s = .next s.completeIllegal) := by
  cases h : decodeWord w with
  | ok i => exact .inl ⟨i, rfl, runWord_ok w s i h⟩
  | error e => exact .inr ⟨e, rfl, runWord_error w s e h⟩

/-- What a write to a register can be: ignored, dropped, an acknowledge or enable, a store, an acceptance. -/
theorem State.writeReg_cases (s : State) (r : Reg) (v : Word) :
    s.writeReg r v = s ∨ s.writeReg r v = { s with wbusy := true } ∨
    s.writeReg r v = { s with doneIe := v.getLsbD 0 } ∨ s.writeReg r v = { s with doneIp := false } ∨
    (s.inflight = none ∧
      (s.writeReg r v = { s with tblIndex := v.setWidth 9 } ∨ s.writeReg r v = { s with srcAddr := v } ∨
       s.writeReg r v = { s with srcLen := v } ∨ s.writeReg r v = { s with dstAddr := v } ∨
       s.writeReg r v = { s with dstCap := v } ∨
       s.writeReg r v = { s.accept v (Config.latency s.draws) with draws := s.draws + 1 })) := by
  cases hb : s.inflight <;> cases r <;>
    (simp only [State.writeReg, State.acknowledge, State.busy_eq, hb, Option.isSome_none, Option.isSome_some,
       if_true, Bool.false_eq_true, if_false]
     first
       | (split <;> simp)
       | simp)

/-- A write of the outside world keeps every field but memory and, in a window, the race mark. -/
theorem State.outsideWrite_eq (s : State) (a : Word) (b : Byte) :
    s.outsideWrite a b = { s with
      mem := s.mem.write a.toNat b
      inflight := if s.inWindow a.toNat
        then s.inflight.map fun f => { f with raced := true } else s.inflight } := by
  unfold State.outsideWrite State.markRaced
  split <;> simp_all

/-- Memory after any event: a host write's, or the aborted command's, or as before. -/
theorem State.event_mem (s : State) (e : HostEvent) :
    (s.event e).mem = s.mem ∨ (∃ a b, e = .memWrite a b ∧ (s.event e).mem = s.mem.write a.toNat b) ∨
    (e = .rstAssert ∧ (s.event e).mem = s.abortMem) := by
  cases e with
  | write off v =>
    left
    simp only [State.event, State.busWrite]
    split
    · rfl
    · split
      · rfl
      · rename_i r _
        rcases State.writeReg_cases s r v with h | h | h | h | ⟨_, h | h | h | h | h | h⟩ <;> (rw [h]; try rfl)
  | read off => exact .inl rfl
  | memWrite a b => exact .inr (.inl ⟨a, b, rfl, by simp [State.event, State.outsideWrite_eq]⟩)
  | memRead a => exact .inl rfl
  | rstAssert => exact .inr (.inr ⟨rfl, rfl⟩)
  | rstRelease => exact .inl rfl

end Sys2Proof.Machine
end

