-- ==== Sys2Proof/Tests/Slice0.lean ====
section
/-! SUPPORT. The model's own tests. Expected values are those of spec/95_test_vectors.md (the vector's id
stands in the docstring) or are written out from the encoding rules; the `wit_` theorems show that the hypotheses
of the statements can be met together. -/

namespace Sys2Proof.Tests
open Sys2Proof.Machine

/-! ## Helpers -/

/-- The next state of a step that has one. -/
def nextOf (o : Host.Outcome State Fault Refusal) : State :=
  match o with
  | .next t => t
  | .fault _ => State.reset
  | .refused _ => State.reset

/-- The completion step of a command. -/
def ex (i : Instr) (s : State) : State := nextOf (exec i s)

/-- Source bytes at 0x1000, destination at 0x8000 with DST_CAP = 0x4000 (95_test_vectors.md). -/
def src (bs : List Byte) : State :=
  { State.reset with
    mem := Memory.writeBytes [] 0x1000 bs
    srcAddr := 0x1000, srcLen := BitVec.ofNat 32 bs.length, dstAddr := 0x8000, dstCap := 0x4000 }

/-- The bytes of the output. -/
def out (s : State) : List Byte := s.mem.bytes s.dstAddr.toNat s.resultLen.toNat

/-- Command word w in flight, its completion step in `wait` turns. -/
def busyWith (w : Word) (wait : Nat) (s : State) : State :=
  { s with inflight := some { word := w, wait := wait, raced := false } }

/-- "aaab". -/
def aaab : List Byte := [0x61, 0x61, 0x61, 0x62]

/-- "aaaa". -/
def aaaa : List Byte := [0x61, 0x61, 0x61, 0x61]

/-- "abracadabra". -/
def abra : List Byte := [0x61, 0x62, 0x72, 0x61, 0x63, 0x61, 0x64, 0x61, 0x62, 0x72, 0x61]

/-- Vector VE3, with its finalByteBits and its payload byte as arguments. -/
def ve3With (fbb pay : Byte) : List Byte :=
  [0, 0, 0, 2, 0, 0, 0, 0, 0, 0, 0, 4, 0x61, 0, 0, 0, 3, 0x62, 0, 0, 0, 1, fbb, pay]

/-- Vector VE3. -/
def ve3 : List Byte := ve3With 4 0xE0

/-- Vector VE1, the empty stream. -/
def ve1 : List Byte := List.replicate 13 0

/-- Vector VE6. -/
def ve6 : List Byte :=
  [0, 0, 0, 5, 0, 0, 0, 0, 0, 0, 0, 0x0B, 0x61, 0, 0, 0, 5, 0x62, 0, 0, 0, 2, 0x63, 0, 0, 0, 1,
    0x64, 0, 0, 0, 1, 0x72, 0, 0, 0, 2, 7, 0x69, 0xCF, 0x68]

/-! ## What is ill formed is refused -/

theorem test_opcode_zero_ill_formed : opcodeWf 0x00 = false := by decide
theorem test_opcode_ten_ill_formed : opcodeWf 0x0A = false := by decide
theorem test_rsvd_ill_formed : rsvdWf 0x00000108 = false := by decide
theorem test_command_word_ill_formed : commandWordWf 0x80000001 = false := by decide
theorem test_bus_offset_ill_formed : busOffsetWf 0x05 = false := by decide
theorem test_memory_descending_ill_formed : Memory.wf [(5, 1), (4, 1)] = false := by decide
theorem test_memory_zero_byte_ill_formed : Memory.wf [(5, 0)] = false := by decide
theorem test_memory_past_space_ill_formed : Memory.wf [(0x100000000, 1)] = false := by decide

/-! ## Decoding (30_encoding.md R80 to R82): RSVD ++ OPCODE, written bit by bit -/

theorem test_decode_clear : decodeWord (0x000000#24 ++ 0b00000001#8) = .ok .clear := by decide
theorem test_decode_count : decodeWord (0x000000#24 ++ 0b00000010#8) = .ok .count := by decide
theorem test_decode_build_tree : decodeWord (0x000000#24 ++ 0b00000011#8) = .ok .buildTree := by decide
theorem test_decode_assign_codes : decodeWord (0x000000#24 ++ 0b00000100#8) = .ok .assignCodes := by decide
theorem test_decode_emit_stream : decodeWord (0x000000#24 ++ 0b00000101#8) = .ok .emitStream := by decide
theorem test_decode_parse_header : decodeWord (0x000000#24 ++ 0b00000110#8) = .ok .parseHeader := by decide
theorem test_decode_decode_payload : decodeWord (0x000000#24 ++ 0b00000111#8) = .ok .decodePayload := by decide
theorem test_decode_encode : decodeWord (0x000000#24 ++ 0b00001000#8) = .ok .encode := by decide
theorem test_decode_decode : decodeWord (0x000000#24 ++ 0b00001001#8) = .ok .decode := by decide

/-- VH1, VH2, VH3. -/
theorem test_decode_illegal :
    decodeWord 0x00000000 = .error .reservedOpcode ∧ decodeWord 0x0000000A = .error .reservedOpcode ∧
    decodeWord 0x000000FF = .error .reservedOpcode ∧ decodeWord 0x00000108 = .error .rsvdNonzero := by decide

theorem test_decode_table_word :
    decodeTableWord 32 0x00000008 = some .encode ∧ decodeTableWord 32 0x00000108 = none ∧
    decodeTableWord 32 0 = none := by decide

/-! ## One step -/

theorem test_step_runs_placed_word :
    step (State.reset.withFetchWord 32 8) = exec .encode (State.reset.withFetchWord 32 8) := rfl

/-- VH3: no ENCODE is performed. -/
theorem test_illegal_word_status :
    (nextOf (step ((src aaab).withFetchWord 32 0x108))).statusWord = 0x08000106 := by decide +kernel

/-- VK1. -/
theorem test_clear_status : (ex .clear ((src aaab).withFetchWord 32 1)).statusWord = 0x01000002 := by
  decide +kernel
theorem test_clear_empties : (ex .clear (ex .count (src aaab))).freq.toList = List.replicate 256 0 := by
  decide +kernel

/-- VN1. -/
theorem test_count_abracadabra :
    let t := ex .count (src abra)
    (tget t.freq 0x61 = 5 ∧ tget t.freq 0x72 = 2 ∧ tget t.freq 0x65 = 0) ∧ t.nsym = 5 ∧ t.origLen = 11 := by
  decide +kernel

/-- VN4: a window that ends at 2^32 is in range. -/
theorem test_count_to_the_top :
    let t := ex .count { src [] with srcAddr := 0xFFFFFFF0, srcLen := 0x10 }
    t.errCode = .none ∧ t.origLen = 16 := by decide +kernel

/-- VT6: ties are broken by the smallest symbol. -/
theorem test_build_tree_abracadabra :
    let t := ex .buildTree (ex .count (src abra))
    t.root = 8 ∧ t.arena[5]? = some (.fork 2 [0x63, 0x64] 2 3) ∧
    t.arena[7]? = some (.fork 6 [0x62, 0x63, 0x64, 0x72] 4 6) := by decide +kernel

/-- VT2, with its node readback. -/
theorem test_build_tree_one_symbol :
    let t := { ex .buildTree (ex .count (src aaaa)) with tblIndex := 1 }
    t.root = 1 ∧ t.readReg .nodeInfo = 0xC0000061 ∧ t.readReg .nodeLink = 0x01FF0000 := by decide +kernel

/-- VA6. -/
theorem test_assign_codes_abracadabra :
    let t := ex .assignCodes (ex .buildTree (ex .count (src abra)))
    tget t.codeLen 0x63 = 4 ∧ tget t.codeBits 0x63 = 0b1110 ∧ tget t.codeBits 0x72 = 0b10 ∧
    t.totalBits = 23 ∧ t.finalBits = 7 := by decide +kernel

/-- VA2. -/
theorem test_assign_codes_one_symbol :
    let t := ex .assignCodes (ex .buildTree (ex .count (src aaaa)))
    tget t.codeLen 0x61 = 1 ∧ tget t.codeBits 0x61 = 0 ∧ t.totalBits = 4 := by decide +kernel

/-- VE3. -/
theorem test_emit_stream_aaab :
    out (ex .emitStream (ex .assignCodes (ex .buildTree (ex .count (src aaab))))) = ve3 := by decide +kernel

/-- VD2. -/
theorem test_parse_header_aaab :
    let t := ex .parseHeader (src ve3)
    t.payAddr = 0x1017 ∧ t.payLen = 1 ∧ t.payFbb = 4 ∧ t.nsym = 2 ∧ t.hdrValid = true := by decide +kernel

/-- VD9. -/
theorem test_parse_header_padding : (ex .parseHeader (src (ve3With 4 0xE1))).errCode = .corruptPadding := by
  decide +kernel

/-- VD36. -/
theorem test_decode_payload_aaab :
    out (ex .decodePayload (ex .buildTree (ex .parseHeader (src ve3)))) = aaab := by decide +kernel

/-- VD35. -/
theorem test_decode_payload_sequence :
    (ex .decodePayload (ex .parseHeader (src ve3))).errCode = .sequence := by decide +kernel

/-- VE6. -/
theorem test_encode_abracadabra : out (ex .encode (src abra)) = ve6 := by decide +kernel

/-- VC1. -/
theorem test_encode_overflow_status :
    (ex .encode ({ src abra with dstCap := 40 }.withFetchWord 32 8)).statusWord = 0x08070706 := by
  decide +kernel

/-- VD31. -/
theorem test_decode_abracadabra : out (ex .decode (src ve6)) = abra := by decide +kernel

/-- VD7, VD8, VD5. -/
theorem test_decode_corrupt :
    (ex .decode (src (ve3With 3 0xE0))).errCode = .corruptEndOfStream ∧
    (ex .decode (src (ve3With 5 0xE0))).errCode = .corruptTrailingBits ∧
    (ex .decode (src (ve3With 4 0xC0))).errCode = .corruptHistogram := by decide +kernel

/-- Program 4, run (b): the second command is dropped and WBUSY is set. -/
theorem test_dropped_command :
    let t := (busyWith 2 1 (src aaab)).busWrite 0x04 3
    t.wbusy = true ∧ t.inflight = (busyWith 2 1 (src aaab)).inflight := by decide +kernel

/-- VT1's node readback. -/
theorem test_node_readback :
    let t := ex .buildTree (ex .count (src aaab))
    { t with tblIndex := 0 }.busRead 0x80 = 0x80000061 ∧ { t with tblIndex := 0 }.busRead 0x84 = 0x01FF01FF ∧
    { t with tblIndex := 2 }.busRead 0x80 = 0xE0000061 ∧ { t with tblIndex := 2 }.busRead 0x84 = 1 ∧
    { t with tblIndex := 3 }.busRead 0x80 = 0 := by decide +kernel

/-! ## Witnesses: the hypotheses of the statements can be met together -/

/-- "aaab" counted. -/
def wTable : State := ((src aaab).loadTable (histogram aaab) 4).flagsTable

/-- Its tree built. -/
def wTree : State := wTable.treeBuilt

/-- Its codes assigned. -/
def wCodes : State := wTree.loadCodes (codesOf wTree.arena wTree.root 0)

/-- "aaaa" counted: one symbol. -/
def wOne : State := ((src aaaa).loadTable (histogram aaaa) 4).flagsTable

/-- Zero bytes counted: the empty table. -/
def wEmpty : State := ((src []).loadTable (histogram []) 0).flagsTable

/-- VE3 parsed, and its tree built. -/
def wParsed (fbb pay : Byte) : State :=
  { wTree with
    mem := Memory.writeBytes [] 0x1000 (ve3With fbb pay)
    payAddr := 0x1017, payLen := 1, payFbb := fbb.setWidth 4, hdrValid := true }

/-- ENCODE of "aaab" in flight. -/
def wBusy (wait : Nat) : State := busyWith 8 wait (src aaab)

/-- ENCODE of "aaab" in flight and raced. -/
def wRaced : State := (wBusy 0).markRaced

/-- The header of a stream that has one. -/
def headerOf (r : Except ErrCode Header) : Header :=
  match r with
  | .ok h => h
  | .error _ => { freq := tabulate fun _ => 0, nsym := 0, orig := 0, fbb := 0 }

theorem ok_headerOf (r : Except ErrCode Header) (h : r.toBool = true) : r = .ok (headerOf r) := by
  cases r with
  | ok _ => rfl
  | error _ => cases h

theorem exec_next (i : Instr) (s : State) : exec i s = .next (nextOf (exec i s)) := by cases i <;> rfl

theorem step_busy (w : Word) (i : Instr) (s : State) (h : decodeWord w = .ok i) :
    step (busyWith w 0 s) = exec i (busyWith w 0 s) := by simp [step, busyWith, runWord, h]

theorem truthful_dstCap (s : State) (c : Word) : s.FlagsTruthful → { s with dstCap := c }.FlagsTruthful := id

theorem truthful_busyWith (w : Word) (n : Nat) (s : State) :
    s.FlagsTruthful → (busyWith w n s).FlagsTruthful := id

theorem wTree_truthful : wTree.FlagsTruthful := by
  refine ⟨fun _ => by decide +kernel, fun _ => ⟨rfl, by decide +kernel, 0, rfl⟩, ?_, ?_⟩ <;>
    intro h <;> cases h

theorem wCodes_truthful : wCodes.FlagsTruthful := by
  refine ⟨fun _ => by decide +kernel, fun _ => ⟨rfl, by decide +kernel, 0, rfl⟩,
    fun _ => ⟨rfl, ⟨0, rfl⟩, by decide +kernel, by decide +kernel⟩, ?_⟩
  intro h; cases h

theorem wParsed_truthful : (wParsed 4 0xE0).FlagsTruthful := by
  refine ⟨fun _ => by decide +kernel, fun _ => ⟨rfl, by decide +kernel, 0, rfl⟩, ?_, ?_⟩
  · intro h; cases h
  · exact fun _ => ⟨rfl, by decide +kernel, by decide +kernel⟩

theorem wEmpty_truthful : wEmpty.FlagsTruthful := by
  refine ⟨fun _ => by decide +kernel, ?_, ?_, ?_⟩ <;> intro h <;> cases h

theorem wit_TableWordsDecode : Instr.wellFormed .clear = true ∧ Instr.wellFormed .decode = true := by decide

theorem wit_IllegalWordCompletesWithError :
    ((busyWith 0x108 0 State.reset).inflight = some ⟨0x108, 0, false⟩ ∧
      (0x108#32).extractLsb' 8 24 ≠ 0) ∧
    ((busyWith 0 0 State.reset).inflight = some ⟨0, 0, false⟩ ∧ (0#32).extractLsb' 0 8 = 0) ∧
    ((busyWith 0x0A 0 State.reset).inflight = some ⟨0x0A, 0, false⟩ ∧
      0x0A ≤ ((0x0A#32).extractLsb' 0 8).toNat) := by decide +kernel

theorem wit_StepRunsDecodedCommand :
    (wBusy 0).inflight = some ⟨8, 0, false⟩ ∧ decodeWord 8 = .ok .encode ∧
    Instr.wellFormed .encode = true := ⟨rfl, by decide, by decide⟩

theorem wit_StepTakesOneHostTurn :
    (State.reset.inflight = none ∧ State.reset.inputs = []) ∧
    ({ State.reset with inputs := [.read 0x08] }.inflight = none ∧
      { State.reset with inputs := [.read 0x08] }.inputs = .read 0x08 :: []) ∧
    ((wBusy 1).inflight = some ⟨8, 1, false⟩ ∧ (1 : Nat) ≠ 0 ∧ (wBusy 1).inputs = []) ∧
    ({ wBusy 1 with inputs := [.read 0x08] }.inflight = some ⟨8, 1, false⟩ ∧
      { wBusy 1 with inputs := [.read 0x08] }.inputs = .read 0x08 :: []) :=
  ⟨⟨rfl, rfl⟩, ⟨rfl, rfl⟩, ⟨rfl, by decide, rfl⟩, rfl, rfl⟩

/-- The reset comes one turn after the completion step. -/
theorem wit_AcceptedCommandCompletes :
    let s := { wBusy 2 with inputs := [.read 0x08, .write 0x18 5, .rstAssert] }
    s.inflight = some ⟨8, 2, false⟩ ∧ ∀ e ∈ s.inputs.take 2, e ≠ .rstAssert :=
  ⟨rfl, by decide⟩

theorem wit_RegisterWrites :
    ((wBusy 1).rst = false ∧ (wBusy 1).busy = true ∧
      (0x04 : Byte) ∈ ([0x04, 0x14, 0x18, 0x1C, 0x20, 0x54] : List Byte) ∧
      (0x54 : Byte) ∈ ([0x04, 0x14, 0x18, 0x1C, 0x20, 0x54] : List Byte)) ∧
    (State.reset.rst = false ∧ State.reset.busy = false) ∧
    ((1 : Word).getLsbD 0 = true ∧ (0 : Word).getLsbD 0 = false) ∧
    (0x00 : Byte) ∉ ([0x04, 0x0C, 0x10, 0x14, 0x18, 0x1C, 0x20, 0x54] : List Byte) ∧
    (0xFC : Byte) ∉ ([0x04, 0x0C, 0x10, 0x14, 0x18, 0x1C, 0x20, 0x54] : List Byte) := by decide +kernel

theorem wit_CommandAccepted : State.reset.busy = false ∧ State.reset.rst = false := ⟨rfl, rfl⟩

theorem wit_HostRegistersWhileBusy : ∃ t, exec .encode (wBusy 0) = .next t := ⟨_, exec_next _ _⟩

theorem wit_ReadsChangeNothing :
    (wBusy 1).busy = true ∧
    ∀ off ∈ ([0x24, 0x50, 0x58, 0x8C] : List Byte),
      off.toNat % 4 = 0 ∧ (0x24 ≤ off.toNat ∧ off.toNat ≤ 0x50 ∨ 0x58 ≤ off.toNat ∧ off.toNat ≤ 0x8C) := by
  decide +kernel

theorem wit_RegisterMapReads :
    wCodes.busy = false ∧ 0x90 ≤ (0x90 : Byte).toNat ∧ 0x90 ≤ (0xFF : Byte).toNat := by decide +kernel

/-- The first index without a node, a leaf, a fork with two children and a fork with one. -/
theorem wit_NodeReadback :
    wTree.busy = false ∧ wTree.arena.length ≤ (3 : BitVec 9).toNat ∧
    wTree.arena[0]? = some (.leaf 0x61 3) ∧ wTree.arena[2]? = some (.fork 4 [0x61, 0x62] 1 0) ∧
    wOne.treeBuilt.arena[1]? = some (.fork 4 [0x61] 0 0x1FF) := by decide +kernel

theorem wit_InterruptOutput :
    (∃ t, runWord 8 (wBusy 0) = .next t) ∧ (∃ t, runWord 0 (wBusy 0) = .next t) :=
  ⟨⟨_, exec_next .encode _⟩, ⟨_, rfl⟩⟩

theorem wit_DoneIpClearedOnlyByHost :
    (∃ t, step { State.reset with doneIp := true, inputs := [.write 0x10 1] } = .next t ∧ t.doneIp = false) ∧
    (∃ t, step { State.reset with doneIp := true, inputs := [.rstAssert] } = .next t ∧ t.doneIp = false) ∧
    (State.reset.rst = false ∧ (1 : Word).getLsbD 0 = true ∧ (0 : Word).getLsbD 0 = false) :=
  ⟨⟨_, rfl, by decide +kernel⟩, ⟨_, rfl, rfl⟩, rfl, by decide, by decide⟩

/-- The bytes just outside the write window of an ENCODE in flight, and one inside. -/
theorem wit_ResetAbortsCommand :
    (wBusy 1).inWriteWindow 0x7FFF = false ∧ (wBusy 1).inWriteWindow 0xC000 = false ∧
    (wBusy 1).inWriteWindow 0xBFFF = true := by decide +kernel

theorem wit_ResetHeldIgnoresWrites : State.reset.assertReset.rst = true := rfl

theorem wit_CompletionStepWrites :
    (wBusy 0).raced = false ∧ ∃ t, exec .encode (wBusy 0) = .next t := ⟨rfl, _, exec_next _ _⟩

theorem wit_ErrorCodesPerCommand :
    ∃ t, exec .decodePayload State.reset = .next t ∧ t.errCode = .sequence := ⟨_, rfl, by decide +kernel⟩

/-- An error before any access, and INPUT_MISMATCH. -/
theorem wit_OutputAfterError :
    (State.reset.raced = false ∧ emits .decodePayload = true ∧ (ex .decodePayload State.reset).errCode ≠ .none ∧
      (ex .decodePayload State.reset).errCode ∈
        ([.sequence, .addressRange, .overlap, .outputOverflow] : List ErrCode)) ∧
    ({ wCodes with srcLen := 3 }.raced = false ∧ emits .emitStream = true ∧
      (ex .emitStream { wCodes with srcLen := 3 }).errCode = .inputMismatch) := by decide +kernel

theorem wit_WritesOnlyDestinationWindow :
    (∃ t, exec .encode (wBusy 0) = .next t) ∧ (∃ t, exec .count wRaced = .next t) ∧ emits .count = false :=
  ⟨⟨_, exec_next _ _⟩, ⟨_, exec_next _ _⟩, rfl⟩

/-- Two memories that differ in the byte after the source window only. -/
theorem wit_ReadsOnlyItsWindows :
    (src aaab).raced = false ∧ (src aaab).mem.wf = true ∧
    ((src aaab).mem.write 0x1004 7).wf = true ∧
    (∀ w ∈ readWindows .encode (src aaab), ∀ a : Nat, w.contains a = true →
      ((src aaab).mem.write 0x1004 7).read a = (src aaab).mem.read a) := by
  refine ⟨rfl, by decide +kernel, by decide +kernel, ?_⟩
  intro w hw a ha
  simp only [readWindows, List.mem_singleton] at hw
  subst hw
  have h : 0x1000 ≤ a ∧ a < 0x1004 := by simpa [Window.contains, State.srcWindow, src, aaab] using ha
  obtain ⟨h1, h2⟩ := h
  interval_cases a <;> decide +kernel

theorem wit_ClearEmptiesTables : State.reset.raced = false ∧ (wBusy 0).raced = false := ⟨rfl, rfl⟩

theorem wit_CountCompletes :
    let s := { State.reset with srcAddr := 0xFFFFFFF0, srcLen := 0x10 }
    s.raced = false ∧ s.srcAddr.toNat + s.srcLen.toNat ≤ 2 ^ 32 := by decide +kernel

theorem wit_CountsSumToLength :
    (src aaab).raced = false ∧ (src aaab).srcWindow.inRange = true ∧ ∃ t, exec .count (src aaab) = .next t :=
  ⟨rfl, by decide +kernel, _, exec_next _ _⟩

theorem wit_EarlyErrorsChangeOnlyStatus :
    State.reset.raced = false ∧
    2 ^ 32 < (0xFFFFFFFF : Word).toNat + (2 : Word).toNat ∧
    State.reset.tableValid = false ∧ (wEmpty.tableValid = true ∧ wEmpty.nsym = 0) ∧
    wTable.treeValid = false := by decide +kernel

/-- One state for each of the eight errors; the OUTPUT_OVERFLOW states are one byte short. DECODE_PAYLOAD's
ADDRESS_RANGE is met by either window. -/
theorem wit_EarlyErrorsOfEmitters :
    (¬ (State.reset.codesValid = true ∨ (State.reset.tableValid = true ∧ State.reset.nsym = 0))) ∧
    (wCodes.codesValid = true ∧
      ¬ (0xFFFFFFFF + 2 ≤ 2 ^ 32 ∧ wCodes.dstAddr.toNat + wCodes.dstCap.toNat ≤ 2 ^ 32)) ∧
    (wCodes.srcAddr.toNat + wCodes.srcLen.toNat ≤ 2 ^ 32 ∧
      { wCodes with dstAddr := 0x1003 }.srcWindow.overlaps { wCodes with dstAddr := 0x1003 }.dstWindow = true) ∧
    ({ wCodes with dstCap := 23 }.srcWindow.overlaps { wCodes with dstCap := 23 }.dstWindow = false ∧
      (23 : Word).toNat < wCodes.emitSize) ∧
    (¬ (wTree.hdrValid = true ∧ (wTree.nsym = 0 ∨ wTree.treeValid = true))) ∧
    ((wParsed 4 0xE0).hdrValid = true ∧ (wParsed 4 0xE0).treeValid = true) ∧
    (ex .decodePayload { wParsed 4 0xE0 with payAddr := 0xFFFFFFFF, payLen := 2 }).errCode = .addressRange ∧
    (ex .decodePayload { wParsed 4 0xE0 with dstAddr := 0xFFFFFFFF, dstCap := 2 }).errCode = .addressRange ∧
    (wParsed 4 0xE0).payAddr.toNat + (wParsed 4 0xE0).payLen.toNat ≤ 2 ^ 32 ∧
    ({ wParsed 4 0xE0 with dstAddr := 0x1017 }.payWindow.overlaps
      { wParsed 4 0xE0 with dstAddr := 0x1017 }.dstWindow = true) ∧
    ((wParsed 4 0xE0).payWindow.overlaps { wParsed 4 0xE0 with dstCap := 3 }.dstWindow = false ∧
      (3 : Word).toNat < (wParsed 4 0xE0).origLen.toNat) := by decide +kernel

theorem wit_BuildTreeCompletes :
    (wTable.raced = false ∧ wTable.tableValid = true ∧ wTable.nsym ≠ 0 ∧ Counts wTable.freq wTable.nsym ∧
      wTable.nsym ≠ 1) ∧
    (wOne.raced = false ∧ wOne.tableValid = true ∧ wOne.nsym = 1 ∧ Counts wOne.freq wOne.nsym) := by
  unfold Counts; decide +kernel

theorem wit_BuiltTreeInvariants :
    wTable.raced = false ∧ wTable.tableValid = true ∧ wTable.nsym ≠ 0 ∧ Counts wTable.freq wTable.nsym ∧
    ∃ t, exec .buildTree wTable = .next t :=
  ⟨rfl, rfl, by decide +kernel, by unfold Counts; decide +kernel, _, exec_next _ _⟩

/-- The two-symbol table's indices around NSYM, and the one-symbol table. -/
theorem wit_BuiltTreeNumbering :
    (1 < wTable.nsym.toNat ∧ wTable.nsym.toNat ≤ 2 ∧ 2 < (ex .buildTree wTable).arena.length ∧
      wTable.nsym ≠ 1) ∧
    wOne.nsym = 1 ∧ ∃ t, exec .buildTree wOne = .next t :=
  ⟨by decide +kernel, by decide +kernel, _, exec_next _ _⟩

/-- The same table in two states that differ elsewhere. -/
theorem wit_TreeDependsOnlyOnTable :
    let s' := { wTable with draws := 7, dstCap := 0 }
    wTable.raced = false ∧ s'.raced = false ∧ wTable.tableValid = true ∧ s'.tableValid = true ∧
    wTable.nsym ≠ 0 ∧ Counts wTable.freq wTable.nsym ∧ Counts s'.freq s'.nsym ∧ wTable.freq = s'.freq ∧
    (∃ t, exec .buildTree wTable = .next t) ∧ ∃ t', exec .buildTree s' = .next t' :=
  ⟨rfl, rfl, rfl, rfl, by decide +kernel, by unfold Counts; decide +kernel, by unfold Counts; decide +kernel,
    rfl, ⟨_, exec_next _ _⟩, _, exec_next _ _⟩

theorem wit_AssignCodesCompletes :
    wTree.raced = false ∧ wTree.treeValid = true ∧ wTree.FlagsTruthful ∧ tget wTree.freq 0x61 ≠ 0 ∧
    tget wTree.freq 0x63 = 0 := ⟨rfl, rfl, wTree_truthful, by decide +kernel, by decide +kernel⟩

theorem wit_CodesArePrefixFree :
    wTree.raced = false ∧ wTree.treeValid = true ∧ wTree.FlagsTruthful ∧
    (∃ t, exec .assignCodes wTree = .next t) ∧ tget wTree.freq 0x61 ≠ 0 ∧ tget wTree.freq 0x62 ≠ 0 :=
  ⟨rfl, rfl, wTree_truthful, ⟨_, exec_next _ _⟩, by decide +kernel, by decide +kernel⟩

theorem wit_PayloadLengthIsTotalBits : aaab.length < 2 ^ 32 := by decide

/-- A destination of exactly the stream's size, and the empty table with 13 bytes. -/
theorem wit_EmitStreamCompletes :
    (let s := { wCodes with dstCap := 24 };
      s.raced = false ∧ s.mem.wf = true ∧ s.codesValid = true ∧
      s.srcAddr.toNat + s.srcLen.toNat ≤ 2 ^ 32 ∧ s.dstAddr.toNat + s.dstCap.toNat ≤ 2 ^ 32 ∧
      s.srcWindow.overlaps s.dstWindow = false ∧ s.emitSize ≤ s.dstCap.toNat) ∧
    (let s := { wEmpty with dstCap := 13 };
      s.raced = false ∧ s.mem.wf = true ∧ s.tableValid = true ∧ s.nsym = 0 ∧
      s.srcAddr.toNat + s.srcLen.toNat ≤ 2 ^ 32 ∧ s.dstAddr.toNat + s.dstCap.toNat ≤ 2 ^ 32 ∧
      s.srcWindow.overlaps s.dstWindow = false ∧ s.emitSize ≤ s.dstCap.toNat) := by decide +kernel

theorem wit_EmitStreamCompletes_truthful :
    { wCodes with dstCap := 24 }.FlagsTruthful ∧ { wEmpty with dstCap := 13 }.FlagsTruthful ∧
    histogram { wCodes with dstCap := 24 }.srcBytes = wCodes.freq ∧
    histogram { wEmpty with dstCap := 13 }.srcBytes = wEmpty.freq :=
  ⟨truthful_dstCap _ _ wCodes_truthful, truthful_dstCap _ _ wEmpty_truthful,
    congrArg histogram (by decide +kernel : { wCodes with dstCap := 24 }.srcBytes = aaab),
    congrArg histogram (by decide +kernel : { wEmpty with dstCap := 13 }.srcBytes = [])⟩

/-- Codes valid beside an NSYM one too small, as only a race leaves them. -/
def wTorn : State := { wCodes with nsym := 1, dstCap := 20 }

theorem wit_EmitStreamWritesItsSize :
    wTorn.raced = false ∧ wTorn.mem.wf = true ∧ wTorn.codesValid = true ∧
    wTorn.srcAddr.toNat + wTorn.srcLen.toNat ≤ 2 ^ 32 ∧ wTorn.dstAddr.toNat + wTorn.dstCap.toNat ≤ 2 ^ 32 ∧
    wTorn.srcWindow.overlaps wTorn.dstWindow = false ∧ wTorn.emitSize ≤ wTorn.dstCap.toNat := by
  decide +kernel

theorem wit_EmitStreamWritesItsSize_histogram : histogram wTorn.srcBytes = wTorn.freq :=
  congrArg histogram (by decide +kernel : wTorn.srcBytes = aaab)

/-- R180's writes in order, by hand: the second entry is overwritten by finalByteBits and the payload, and byte
19, past the size, keeps its value. -/
theorem test_emit_stream_torn_tables :
    (ex .emitStream { wTorn with mem := wTorn.mem.write 0x8013 0xAA }).mem.bytes 0x8000 20 =
      [0, 0, 0, 1, 0, 0, 0, 0, 0, 0, 0, 4, 0x61, 0, 0, 0, 3, 4, 0xE0, 0xAA] := by decide +kernel

theorem wit_EmitStreamMismatch :
    let s := { wCodes with srcLen := 3 }
    s.raced = false ∧ s.codesValid = true ∧
    s.srcAddr.toNat + s.srcLen.toNat ≤ 2 ^ 32 ∧ s.dstAddr.toNat + s.dstCap.toNat ≤ 2 ^ 32 ∧
    s.srcWindow.overlaps s.dstWindow = false ∧ s.emitSize ≤ s.dstCap.toNat ∧
    tget (histogram s.srcBytes) 0x62 ≠ tget s.freq 0x62 := by decide +kernel

theorem wit_PayloadBitOrder : 7 < 8 * ceil8 [true, false, true].length := by decide

theorem ve3_well_formed : HeaderWellFormed (src ve3).mem 0x1000 24 := by
  constructor <;> decide +kernel

theorem wit_ParseHeaderCompletes :
    (src ve3).raced = false ∧ (src ve3).srcAddr.toNat + (src ve3).srcLen.toNat ≤ 2 ^ 32 ∧
    HeaderWellFormed (src ve3).mem (src ve3).srcAddr.toNat (src ve3).srcLen.toNat ∧
    1 < (src ve3).mem.beRead 0x1000 4 :=
  ⟨rfl, by decide +kernel, ve3_well_formed, by decide +kernel⟩

theorem wit_AcceptsExactlyWellFormedHeaders : 0xFFFFFFF0 + 0x10 ≤ 2 ^ 32 := by decide

/-- VD19: three bytes. -/
theorem wit_ParseHeaderCorrupt :
    let s := src (ve3.take 3)
    s.raced = false ∧ s.srcAddr.toNat + s.srcLen.toNat ≤ 2 ^ 32 ∧
    ¬ HeaderWellFormed s.mem s.srcAddr.toNat s.srcLen.toNat :=
  ⟨rfl, by decide +kernel, fun h => absurd h.fixed_fields (by decide +kernel)⟩

/-- VD19, VD17, VD20, VD15 and VD16, each at the first length or count that has its error. -/
theorem wit_HeaderCheckOrder :
    (3 : Nat) < 4 ∧
    256 < (src [0, 0, 1, 1]).mem.beRead 0x1000 4 ∧
    ((src ve3).mem.beRead 0x1000 4 ≤ 256 ∧ 22 < 13 + 5 * (src ve3).mem.beRead 0x1000 4 ∧
      13 + 5 * (src ve3).mem.beRead 0x1000 4 ≤ 23) ∧
    (let m := (src (ve3.set 21 0)).mem;
      1 < m.beRead 0x1000 4 ∧ entryFreq m 0x1000 0 ≠ 0 ∧ entryFreq m 0x1000 1 = 0) ∧
    (let m := (src (ve3.set 17 0x61)).mem;
      1 < m.beRead 0x1000 4 ∧ entryFreq m 0x1000 0 ≠ 0 ∧ entryFreq m 0x1000 1 ≠ 0 ∧
      entrySym m 0x1000 0 = entrySym m 0x1000 1) := by decide +kernel

/-- A header whose entries are sound. -/
def entriesSound (m : Memory) : Bool :=
  decide (m.beRead 0x1000 4 ≤ 256 ∧ (∀ i < m.beRead 0x1000 4, entryFreq m 0x1000 i ≠ 0) ∧
    ∀ i < m.beRead 0x1000 4, ∀ j < m.beRead 0x1000 4, entrySym m 0x1000 i = entrySym m 0x1000 j → i = j)

/-- The sum of its frequencies. -/
def entrySum (m : Memory) : Nat := ((List.range (m.beRead 0x1000 4)).map (entryFreq m 0x1000)).sum

/-- VD14, then VD12, VD11 and VD13, then VD9 and VD10: the checks after the entries, at both ends of the legal
finalByteBits, with and without a payload, and at the lowest and the highest padding bit. -/
theorem wit_HeaderCheckOrder_tail :
    (let m := (src (ve3.set 11 5)).mem;
      entriesSound m = true ∧ entrySum m ≠ m.beRead 0x1004 8) ∧
    (∀ fbb ∈ ([0, 9] : List Byte),
      let m := (src (ve3With fbb 0xE0)).mem
      entriesSound m = true ∧ entrySum m = m.beRead 0x1004 8 ∧ ((m.read 0x1016).toNat = 0 ∨
        8 < (m.read 0x1016).toNat)) ∧
    (let m := (src (ve3.take 23)).mem;
      entriesSound m = true ∧ entrySum m = m.beRead 0x1004 8 ∧ (m.read 0x1016).toNat ≠ 0 ∧
      23 - (13 + 5 * m.beRead 0x1000 4) = 0) ∧
    (∀ q ∈ ([(0xE1, 0), (0xE8, 3)] : List (Byte × Nat)),
      let m := (src (ve3With 4 q.1)).mem
      entriesSound m = true ∧ entrySum m = m.beRead 0x1004 8 ∧ (m.read 0x1016).toNat = 4 ∧
      q.2 < 8 - 4 ∧ (m.read (0x1000 + 24 - 1)).getLsbD q.2 = true) := by decide +kernel

theorem wit_ParseHeaderReadsInsideWindow :
    ∀ x, 0x1000 ≤ x → x < 0x1000 + 3 → (src [1, 2, 3]).mem.read x = (src [1, 2, 3, 4]).mem.read x := by
  intro x h1 h2
  interval_cases x <;> decide +kernel

theorem wit_HeaderParsesBack :
    Memory.wf [] = true ∧ finalByteBitsLegal [0xE0#8].length 4 = true ∧
    (∀ k < 8 - 4, ([0xE0#8].getLastD 0).getLsbD k = false) ∧
    0x1000 + (headerBytes wTable.freq (present wTable.freq).length (totalCount wTable.freq) 4 ++
      [0xE0#8]).length ≤ 2 ^ 32 := by decide +kernel

/-- VD36 with DST_CAP = ORIG_LEN, and VD38. -/
theorem wit_DecodePayloadCompletes :
    (let s := { wParsed 4 0xE0 with dstCap := 4 };
      s.raced = false ∧ s.mem.wf = true ∧ s.hdrValid = true ∧ s.treeValid = true ∧
      s.payAddr.toNat + s.payLen.toNat ≤ 2 ^ 32 ∧
      s.dstAddr.toNat + s.dstCap.toNat ≤ 2 ^ 32 ∧ s.payWindow.overlaps s.dstWindow = false ∧
      s.origLen.toNat ≤ s.dstCap.toNat) ∧
    (let s := { wEmpty with hdrValid := true, dstCap := 0 };
      s.raced = false ∧ s.mem.wf = true ∧ s.hdrValid = true ∧ s.nsym = 0 ∧
      s.payAddr.toNat + s.payLen.toNat ≤ 2 ^ 32 ∧
      s.dstAddr.toNat + s.dstCap.toNat ≤ 2 ^ 32 ∧ s.payWindow.overlaps s.dstWindow = false ∧
      s.origLen.toNat ≤ s.dstCap.toNat) := by decide +kernel

theorem wit_DecodePayloadCompletes_walk :
    (let s := { wParsed 4 0xE0 with dstCap := 4 };
      walkSymbols s.arena s.draws s.root s.origLen.toNat s.payloadBits = .ok (aaab, []) ∧
      histogram aaab = s.freq) ∧
    (let s := { wEmpty with hdrValid := true, dstCap := 0 };
      walkSymbols s.arena s.draws s.root s.origLen.toNat s.payloadBits = .ok ([], []) ∧
      histogram [] = s.freq) :=
  ⟨⟨by decide +kernel, rfl⟩, by decide +kernel, rfl⟩

/-- VD7, VD8 and VD5. -/
theorem wit_DecodePayloadCorrupt :
    (let s := wParsed 3 0xE0;
      s.raced = false ∧ s.hdrValid = true ∧ s.treeValid = true ∧
      s.payAddr.toNat + s.payLen.toNat ≤ 2 ^ 32 ∧
      s.dstAddr.toNat + s.dstCap.toNat ≤ 2 ^ 32 ∧ s.payWindow.overlaps s.dstWindow = false ∧
      s.origLen.toNat ≤ s.dstCap.toNat ∧
      walkSymbols s.arena s.draws s.root s.origLen.toNat s.payloadBits = .error .corruptEndOfStream) ∧
    (let s := wParsed 5 0xE0;
      walkSymbols s.arena s.draws s.root s.origLen.toNat s.payloadBits = .ok (aaab, [false])) ∧
    (let s := wParsed 4 0xC0;
      walkSymbols s.arena s.draws s.root s.origLen.toNat s.payloadBits =
        .ok ([0x61, 0x61, 0x62, 0x62], []) ∧
      tget (histogram [0x61, 0x61, 0x62, 0x62]) 0x61 ≠ tget s.freq 0x61) := by decide +kernel

/-- A destination of exactly the stream's size. -/
theorem wit_EncodeCompletes :
    let s := { src aaab with dstCap := 24 }
    s.raced = false ∧ s.mem.wf = true ∧ s.srcAddr.toNat + s.srcLen.toNat ≤ 2 ^ 32 ∧
    s.dstAddr.toNat + s.dstCap.toNat ≤ 2 ^ 32 ∧ s.srcWindow.overlaps s.dstWindow = false ∧
    s.encodedSize ≤ s.dstCap.toNat := by decide +kernel

/-- A source and a destination past the space, an overlap in one byte, a destination one byte short. -/
theorem wit_EncodeErrorKeepsSteps :
    (src aaab).raced = false ∧ 2 ^ 32 < (0xFFFFFFFF : Word).toNat + (2 : Word).toNat ∧
    (src aaab).srcAddr.toNat + (src aaab).srcLen.toNat ≤ 2 ^ 32 ∧
    (let s := { src aaab with dstAddr := 0x1003 };
      s.dstAddr.toNat + s.dstCap.toNat ≤ 2 ^ 32 ∧ s.srcWindow.overlaps s.dstWindow = true) ∧
    (let s := { src aaab with dstAddr := 0x1004, dstCap := 23 };
      s.dstAddr.toNat + s.dstCap.toNat ≤ 2 ^ 32 ∧ s.srcWindow.overlaps s.dstWindow = false ∧
      s.dstCap.toNat < s.encodedSize) ∧
    (ex .encode { src aaab with dstAddr := 0xFFFFFFFF, dstCap := 2 }).errCode = .addressRange := by
  decide +kernel

/-- VD2, with DST_CAP = ORIG_LEN. -/
theorem wit_DecodeCompletes :
    let s := { src ve3 with dstCap := 4 }
    let h := headerOf (parseHeader s.mem s.srcAddr.toNat s.srcLen.toNat)
    s.raced = false ∧ s.mem.wf = true ∧ s.srcAddr.toNat + s.srcLen.toNat ≤ 2 ^ 32 ∧
    parseHeader s.mem s.srcAddr.toNat s.srcLen.toNat = .ok h ∧
    s.dstAddr.toNat + s.dstCap.toNat ≤ 2 ^ 32 ∧
    (s.decodeStart h).payWindow.overlaps s.dstWindow = false ∧ h.orig ≤ s.dstCap.toNat ∧
    (s.decodeStart h).decodeOutput = .ok aaab := by
  exact ⟨rfl, by decide +kernel, by decide +kernel, ok_headerOf _ (by decide +kernel), by decide +kernel,
    by decide +kernel, by decide +kernel, by decide +kernel⟩

/-- The state a DECODE decodes its payload from. -/
def startOf (s : State) : State := s.decodeStart (headerOf (parseHeader s.mem s.srcAddr.toNat s.srcLen.toNat))

/-- How its walk ends. -/
def walkOf (s : State) : Except ErrCode (List Byte × List Bool) :=
  walkSymbols (startOf s).arena (startOf s).draws (startOf s).root
    (headerOf (parseHeader s.mem s.srcAddr.toNat s.srcLen.toNat)).orig (startOf s).payloadBits

/-- A source past the space, VD19, a destination past the space, VD30 (an overlap in one byte), VD28, and the
payloads of VD7, VD23, VD8 and VD5. -/
theorem wit_DecodeErrorKeepsSteps :
    2 ^ 32 < (0xFFFFFFFF : Word).toNat + (2 : Word).toNat ∧
    (let s := src (ve3.take 3);
      s.raced = false ∧ s.srcAddr.toNat + s.srcLen.toNat ≤ 2 ^ 32 ∧
      parseHeader s.mem s.srcAddr.toNat s.srcLen.toNat = .error .corruptTruncated) ∧
    (let s := src ve3;
      s.raced = false ∧ s.srcAddr.toNat + s.srcLen.toNat ≤ 2 ^ 32 ∧
      (parseHeader s.mem s.srcAddr.toNat s.srcLen.toNat).toBool = true ∧
      (startOf s).payWindow.overlaps { base := 0x1000, len := 24 } = true ∧
      (startOf s).payWindow.overlaps { base := 0x1000, len := 23 } = false ∧
      (startOf s).payWindow.overlaps { base := 0x8000, len := 3 } = false ∧ 3 < (startOf s).origLen.toNat ∧
      (startOf s).payWindow.overlaps s.dstWindow = false ∧ (startOf s).origLen.toNat ≤ s.dstCap.toNat) ∧
    walkOf (src (ve3With 3 0xE0)) = .error .corruptEndOfStream ∧
    walkOf (src [0, 0, 0, 1, 0, 0, 0, 0, 0, 0, 0, 4, 0x61, 0, 0, 0, 4, 4, 0x10]) =
      .error .corruptMissingChild ∧
    walkOf (src (ve3With 5 0xE0)) = .ok (aaab, [false]) ∧
    walkOf (src (ve3With 4 0xC0)) = .ok ([0x61, 0x61, 0x62, 0x62], []) := by decide +kernel

theorem wit_DecodeErrorKeepsSteps_header :
    ∃ h, parseHeader (src ve3).mem (src ve3).srcAddr.toNat (src ve3).srcLen.toNat = .ok h :=
  ⟨_, ok_headerOf _ (by decide +kernel)⟩

/-- The output window starts where the stream ends, and is as long as the input. -/
theorem wit_DecodeOfEncodeIsIdentity :
    let s := src aaab
    let t := ex .encode s
    s.raced = false ∧ s.mem.wf = true ∧ t.errCode = .none ∧
    (0x8018 : Word).toNat + (4 : Word).toNat ≤ 2 ^ 32 ∧ s.srcLen.toNat ≤ (4 : Word).toNat ∧
    Window.overlaps { base := s.dstAddr, len := t.resultLen } { base := 0x8018, len := 4 } = false := by
  decide +kernel

theorem wit_DecodeOfEncodeIsIdentity_next : exec .encode (src aaab) = .next (ex .encode (src aaab)) :=
  exec_next _ _

theorem wit_StepKeepsShape :
    (wBusy 0).shapeOk = true ∧ ∃ t, step (wBusy 0) = .next t := ⟨by decide +kernel, _, exec_next .encode _⟩

theorem wit_StepKeepsFlagsTruthful :
    (busyWith 5 0 wCodes).FlagsTruthful ∧ (busyWith 5 0 wCodes).raced = false ∧
    ∃ t, step (busyWith 5 0 wCodes) = .next t :=
  ⟨truthful_busyWith _ _ _ wCodes_truthful, rfl, _, (step_busy 5 .emitStream wCodes (by decide)).trans (exec_next _ _)⟩

theorem wit_ResetMeetsInvariants : Memory.wf [(0x1000, 0x61), (0xFFFFFFFF, 1)] = true := by decide

/-- Each command that has a window is raced by a byte written into its first byte; the other three only in the
state as data. -/
theorem wit_RacedCommandCompletes :
    ((busyWith 0x02 1 (src aaab)).outsideWrite 0x1000 0x63).raced = true ∧
    ((busyWith 0x05 1 (src aaab)).outsideWrite 0x8000 0x63).raced = true ∧
    ((busyWith 0x06 1 (src ve3)).outsideWrite 0x1000 0x63).raced = true ∧
    ((busyWith 0x07 1 (wParsed 4 0xE0)).outsideWrite 0x1017 0x63).raced = true ∧
    ((busyWith 0x08 1 (src aaab)).outsideWrite 0x1003 0x63).raced = true ∧
    ((busyWith 0x09 1 (src ve3)).outsideWrite 0xBFFF 0x63).raced = true ∧
    (busyWith 0x01 0 State.reset).markRaced.raced = true ∧
    (busyWith 0x03 0 wTable).markRaced.raced = true ∧
    (busyWith 0x04 0 wTree).markRaced.raced = true := by decide +kernel

/-- The first and last bytes of the windows of an ENCODE in flight, and the bytes beside them. -/
theorem wit_OutsideAccessesRace :
    (wBusy 1).running = some .encode ∧ (wBusy 1).mem.wf = true ∧
    (wBusy 1).inWindow 0x1000 = true ∧ (wBusy 1).inWindow 0x0FFF = false ∧
    (wBusy 1).inWindow 0x1004 = false ∧
    ((writeWindows .encode (wBusy 1)).any fun w => w.contains 0x8000) = true ∧
    (wBusy 1).inWriteWindow 0x1000 = false := by decide +kernel

end Sys2Proof.Tests
end

section
/-! PROOFS. What `step` is while no completion step is due: an idle machine takes one turn of the outside world, a
machine whose command waits counts down and takes one (00_scope.md R5, R6; log entries 1, 2). -/

namespace Sys2Proof.Machine

theorem step_of_idle (s : State) (h : s.inflight = none) : step s = .next s.turn := by simp [step, h]

theorem step_of_waiting (s : State) (f : InFlight) (h : s.inflight = some f) (hw : f.wait ≠ 0) :
    step s = .next s.countDown.turn := by simp [step, h, hw]

theorem State.countDown_of_busy (s : State) (f : InFlight) (h : s.inflight = some f) :
    s.countDown = { s with inflight := some { f with wait := f.wait - 1 } } := by simp [State.countDown, h]

end Sys2Proof.Machine

namespace Sys2Proof.Proofs
open Sys2Proof.Machine

/-- Settles O5: the step's equation in each of the two modes, then what a turn is with and without an event. -/
theorem stepTakesOneHostTurn : Obligations.StepTakesOneHostTurn := by
  refine ⟨?idleQuiet, ?idleEvent, ?waitingQuiet, ?waitingEvent⟩
  case idleQuiet =>
    intro s hidle hnil
    rw [step_of_idle s hidle, s.turn_nil hnil]
  case idleEvent =>
    intro s e rest hidle hcons
    rw [step_of_idle s hidle, s.turn_cons e rest hcons]
  case waitingQuiet =>
    intro s f hf hw hnil
    rw [step_of_waiting s f hf hw, s.countDown.turn_nil hnil, s.countDown_of_busy f hf]
  case waitingEvent =>
    intro s f e rest hf hw hcons
    rw [step_of_waiting s f hf hw, s.countDown.turn_cons e rest hcons, s.countDown_of_busy f hf]

end Sys2Proof.Proofs
end

section
/-! PROOFS. The tree builder's arena and queue as a forest: every queue entry is the root of a tree of the arena, the
trees share no symbol, and together they hold the whole table (10_state.md R44, 42_tree_builder.md R153, R154). -/

namespace Sys2Proof.Machine

/-- Node p is a fork with node i as a child. -/
def ParentOf (arena : List Node) (i p : Nat) : Prop :=
  ∃ w c l r, nodeIs arena p (.fork w c l r) ∧ (l.toNat = i ∨ r.toNat = i)

/-- R44 item 1 for the fork at index i: two smaller children, the sum of their weights, the disjoint union of their
contents. -/
structure ForkOk (arena : List Node) (i : Nat) (w : DWord) (c : List Byte) (l r : NodeIdx) : Prop where
  left_smaller : l.toNat < i
  right_smaller : r.toNat < i
  has_right : r ≠ nodeNone
  children : ∃ nl nr, nodeIs arena l.toNat nl ∧ nodeIs arena r.toNat nr ∧
    w.toNat = nl.weight.toNat + nr.weight.toNat ∧
    (∀ b, b ∈ c ↔ b ∈ nl.content ∨ b ∈ nr.content) ∧ (∀ b, b ∈ nl.content → b ∉ nr.content)

/-- Two queue entries share no symbol. -/
def QEntry.Apart (a b : QEntry) : Prop := ∀ s, s ∈ a.node.content → s ∉ b.node.content

/-- The arena is a forest whose roots are the queue's entries, in any order, over the symbols of freq. -/
structure Forest (freq : Vector Word 256) (arena : List Node) (q : List QEntry) : Prop where
  /-- an entry is a node of the arena -/
  held : ∀ e ∈ q, nodeIs arena e.idx e.node
  distinct : (q.map QEntry.idx).Nodup
  forks : ∀ i w c l r, nodeIs arena i (.fork w c l r) → ForkOk arena i w c l r
  leaves : ∀ i b w, nodeIs arena i (.leaf b w) → w.toNat = (tget freq b).toNat ∧ tget freq b ≠ 0
  /-- an entry is the child of no fork -/
  roots : ∀ e ∈ q, ∀ p, ¬ ParentOf arena e.idx p
  /-- every other node is the child of exactly one -/
  children : ∀ i < arena.length, (∀ e ∈ q, e.idx ≠ i) → ∃! p, ParentOf arena i p
  apart : q.Pairwise QEntry.Apart
  covers : ∀ b, (∃ e ∈ q, b ∈ e.node.content) ↔ tget freq b ≠ 0
  /-- no merge loses weight; with `totalCount_lt`, no sum of weights wraps -/
  weight : (q.map fun e => e.node.weight.toNat).sum = totalCount freq
  /-- a merge adds a node and takes an entry off the queue, so every index fits in 9 bits and is not NODE_NONE -/
  size : arena.length + q.length ≤ 512

end Sys2Proof.Machine
end

section
/-! PROOFS. Sums over the 256 symbols: the counts of a buffer, the total of a table, and what filling one empty
entry does to both (41_symbol_table.md R132, R133; 45_decoder.md R204). -/

namespace Sys2Proof.Machine

theorem nodup_allSyms : allSyms.Nodup := pairwise_allSyms.imp fun h e => absurd (e ▸ h) (BitVec.lt_irrefl _)

theorem sum_map_allSyms (f : Byte → Nat) : (allSyms.map f).sum = ∑ b : Byte, f b := by
  have huniv : allSyms.toFinset = Finset.univ :=
    Finset.eq_univ_of_forall fun b => List.mem_toFinset.mpr (mem_allSyms b)
  rw [← List.sum_toFinset f nodup_allSyms, huniv]

theorem sum_map_allSyms_le (f : Byte → Nat) (c : Nat) (h : ∀ b, f b ≤ c) : (allSyms.map f).sum ≤ 256 * c := by
  have := List.sum_le_card_nsmul (allSyms.map f) c (by simpa using fun b _ => h b)
  simpa [length_allSyms] using this

theorem sum_count_allSyms (bs : List Byte) : (allSyms.map fun b => bs.count b).sum = bs.length := by
  rw [sum_map_allSyms]
  induction bs with
  | nil => simp
  | cons c cs ih => simp [List.count_cons, Finset.sum_add_distrib, ih]

/-- R133: below 2^32 bytes no count wraps. -/
theorem toNat_tget_histogram (bs : List Byte) (h : bs.length < 2 ^ 32) (b : Byte) :
    (tget (histogram bs) b).toNat = bs.count b := by
  rw [tget_histogram, BitVec.toNat_ofNat]
  exact Nat.mod_eq_of_lt (lt_of_le_of_lt List.count_le_length h)

theorem totalCount_histogram (bs : List Byte) (h : bs.length < 2 ^ 32) :
    totalCount (histogram bs) = bs.length := by
  simp only [totalCount_eq_sum, toNat_tget_histogram bs h, sum_count_allSyms]

theorem totalCount_lt (freq : Vector Word 256) : totalCount freq < 2 ^ 64 := by
  have := sum_map_allSyms_le (fun b => (tget freq b).toNat) (2 ^ 32) fun b => (tget freq b).isLt.le
  rw [totalCount_eq_sum]
  omega

/-- R173: TOTAL_BITS does not wrap. -/
theorem codedBits_lt (freq : Vector Word 256) (codeLen : Vector Byte 256) : codedBits freq codeLen < 2 ^ 64 := by
  have := sum_map_allSyms_le (fun b => (tget freq b).toNat * (tget codeLen b).toNat) (2 ^ 32 * 2 ^ 8)
    fun b => Nat.mul_le_mul (tget freq b).isLt.le (tget codeLen b).isLt.le
  rw [codedBits_eq_sum]
  omega

/-- A sum over the present symbols is one over all symbols, where an absent symbol adds nothing. -/
theorem sum_map_present (f : Byte → Nat) (freq : Vector Word 256) (h : ∀ b, tget freq b = 0 → f b = 0) :
    ((present freq).map f).sum = (allSyms.map f).sum := by
  rw [present_eq_filter]
  induction allSyms with
  | nil => rfl
  | cons b bs ih =>
    rw [List.filter_cons, List.map_cons, List.sum_cons, ← ih]
    by_cases hb : tget freq b = 0
    · rw [if_neg (by simp [hb]), h b hb, Nat.zero_add]
    · rw [if_pos (by simpa using hb), List.map_cons, List.sum_cons]

theorem length_present_eq_sum (freq : Vector Word 256) :
    (present freq).length = (allSyms.map fun b => if tget freq b ≠ 0 then 1 else 0).sum := by
  rw [← sum_map_present _ freq fun b hb => if_neg (not_not.mpr hb),
    List.map_congr_left fun b hb => if_pos ((mem_present freq b).mp hb)]
  simp

/-- Filling an empty entry adds the new entry's share to any sum that an empty entry adds nothing to. -/
theorem sum_map_tset_of_empty (F : Word → Nat) (hF : F 0 = 0) (freq : Vector Word 256) (b : Byte) (v : Word)
    (hb : tget freq b = 0) :
    (allSyms.map fun x => F (tget (tset freq b v) x)).sum = (allSyms.map fun x => F (tget freq x)).sum + F v := by
  have hx : ∀ x, F (tget (tset freq b v) x) = F (tget freq x) + if b = x then F v else 0 := by
    intro x
    rw [tget_tset]
    split
    · next h => rw [← h, hb, hF, Nat.zero_add]
    · simp
  simp only [sum_map_allSyms, hx, Finset.sum_add_distrib, Finset.sum_ite_eq, Finset.mem_univ, if_true]

theorem totalCount_tset_of_empty (freq : Vector Word 256) (b : Byte) (v : Word) (hb : tget freq b = 0) :
    totalCount (tset freq b v) = totalCount freq + v.toNat := by
  simp only [totalCount_eq_sum]
  exact sum_map_tset_of_empty BitVec.toNat rfl freq b v hb

theorem length_present_tset_of_empty (freq : Vector Word 256) (b : Byte) (v : Word) (hb : tget freq b = 0)
    (hv : v ≠ 0) : (present (tset freq b v)).length = (present freq).length + 1 := by
  simp only [length_present_eq_sum]
  rw [sum_map_tset_of_empty (fun w => if w ≠ 0 then 1 else 0) rfl freq b v hb, if_pos hv]

theorem length_present_tabulate_zero : (present (tabulate fun _ => (0 : Word))).length = 0 := by
  simp [present_eq_filter]

theorem totalCount_tabulate_zero : totalCount (tabulate fun _ => (0 : Word)) = 0 := by
  simp [totalCount_eq_sum]

theorem toNat_ofNat_length_present (freq : Vector Word 256) :
    (BitVec.ofNat 9 (present freq).length).toNat = (present freq).length := by
  have := length_present_le freq
  rw [BitVec.toNat_ofNat, Nat.mod_eq_of_lt (by omega)]

end Sys2Proof.Machine
end

section
/-! PROOFS. What an accepted header says: its table has as many symbols as the header has entries and sums up to
ORIG_LEN (45_decoder.md R200, R204, R205). -/

namespace Sys2Proof.Machine

theorem foldl_bytes_lt (bs : List Byte) (acc : Nat) :
    bs.foldl (fun acc b => acc * 256 + b.toNat) acc < (acc + 1) * 256 ^ bs.length := by
  induction bs generalizing acc with
  | nil => simp
  | cons b bs ih =>
    have hb : acc * 256 + b.toNat + 1 ≤ (acc + 1) * 256 := by have := b.isLt; omega
    calc (b :: bs).foldl (fun acc b => acc * 256 + b.toNat) acc
        < (acc * 256 + b.toNat + 1) * 256 ^ bs.length := ih _
      _ ≤ (acc + 1) * 256 * 256 ^ bs.length := Nat.mul_le_mul_right _ hb
      _ = (acc + 1) * 256 ^ (b :: bs).length := by rw [List.length_cons, pow_succ']; ring

theorem Memory.beRead_lt (m : Memory) (a n : Nat) : m.beRead a n < 256 ^ n := by
  simpa [Memory.beRead] using foldl_bytes_lt (m.bytes a n) 0

/-- An entry loop that starts from a table whose sum it knows knows the sum of the table it ends with, which has one
more symbol an entry. -/
theorem parseEntries_ok (m : Memory) (n a : Nat) (e e' : Entries) (h : parseEntries m n a e = .ok e')
    (hsum : e.sum = totalCount e.freq) :
    e'.sum = totalCount e'.freq ∧ (present e'.freq).length = (present e.freq).length + n := by
  induction n generalizing a e with
  | zero => cases h; exact ⟨hsum, rfl⟩
  | succ n ih =>
    unfold parseEntries at h
    simp only at h
    split_ifs at h with hzero hdup
    have hc := m.beRead_lt (a + 1) 4
    have hv : (BitVec.ofNat 32 (m.beRead (a + 1) 4)).toNat = m.beRead (a + 1) 4 := by
      rw [BitVec.toNat_ofNat, Nat.mod_eq_of_lt (by omega)]
    have hempty : tget e.freq (m.read a) = 0 := not_not.mp hdup
    obtain ⟨h1, h2⟩ := ih _ _ h (by simp only [totalCount_tset_of_empty _ _ _ hempty, hv, hsum])
    refine ⟨h1, ?_⟩
    rw [h2, length_present_tset_of_empty _ _ _ hempty fun h0 => hzero (by rw [← hv, h0]; rfl)]
    omega

theorem parseBody_ok (m : Memory) (a len n : Nat) (h : Header) (hp : parseBody m a len n = .ok h) :
    h.nsym = n ∧ (present h.freq).length = n ∧ totalCount h.freq = h.orig ∧
      finalByteBitsLegal (len - headerLen n) h.fbb = true := by
  unfold parseBody at hp
  simp only at hp
  cases he : parseEntries m n (a + 12) { freq := tabulate fun _ => 0, sum := 0 } with
  | error e => rw [he] at hp; cases hp
  | ok e =>
    obtain ⟨hsum, hlen⟩ := parseEntries_ok m n (a + 12) _ e he totalCount_tabulate_zero.symm
    rw [he] at hp
    simp only at hp
    split_ifs at hp with horig hfbb hpad
    cases hp
    refine ⟨rfl, by rw [hlen, length_present_tabulate_zero, Nat.zero_add], ?_, ?_⟩
    · rw [← hsum]; exact not_not.mp horig
    · simpa using hfbb

/-- An accepted header's table, payload length and finalByteBits are consistent, and each fits its register. -/
theorem parseHeader_ok (m : Memory) (a len : Nat) (h : Header) (hp : parseHeader m a len = .ok h) :
    (present h.freq).length = h.nsym ∧ totalCount h.freq = h.orig ∧ headerLen h.nsym ≤ len ∧
      finalByteBitsLegal (len - headerLen h.nsym) h.fbb = true := by
  unfold parseHeader at hp
  simp only at hp
  split_ifs at hp with hshort hcount hlen
  obtain ⟨hn, hpres, htotal, hfbb⟩ := parseBody_ok _ _ _ _ _ hp
  rw [hn]
  exact ⟨hpres, htotal, by omega, hfbb⟩

theorem finalByteBitsLegal_le (p fbb : Nat) (h : finalByteBitsLegal p fbb = true) : fbb ≤ 8 := by
  unfold finalByteBitsLegal at h
  split at h <;> · have := of_decide_eq_true h; omega

end Sys2Proof.Machine
end

section
/-! PROOFS. The merge loop keeps the forest and ends with one tree, which is what BUILD_TREE leaves (10_state.md R44,
42_tree_builder.md R153 to R155). A merge of any two entries keeps it, so it does not matter here which two keys are
the smallest. -/

namespace Sys2Proof.Machine

/-! ## Nodes of an arena -/

theorem nodeIs_lt {arena : List Node} {i : Nat} {n : Node} (h : nodeIs arena i n) : i < arena.length :=
  (List.getElem?_eq_some_iff.mp h).1

/-- A new node at the arena's end. -/
theorem nodeIs_append_one (arena : List Node) (x : Node) (i : Nat) (n : Node) :
    nodeIs (arena ++ [x]) i n ↔ nodeIs arena i n ∨ (i = arena.length ∧ n = x) := by
  unfold nodeIs
  obtain h | h | h := Nat.lt_trichotomy i arena.length
  · rw [List.getElem?_append_left h]
    exact ⟨Or.inl, fun hor => hor.resolve_right fun ⟨hi, _⟩ => by omega⟩
  · subst h
    simp [eq_comm]
  · rw [List.getElem?_eq_none (by simp; omega), List.getElem?_eq_none (by omega)]
    simp; omega

theorem ForkOk.append_one {arena : List Node} {i : Nat} {w : DWord} {c : List Byte} {l r : NodeIdx} (x : Node)
    (h : ForkOk arena i w c l r) : ForkOk (arena ++ [x]) i w c l r := by
  obtain ⟨hl, hr, hnone, nl, nr, hnl, hnr, hrest⟩ := h
  exact ⟨hl, hr, hnone, nl, nr, (nodeIs_append_one ..).mpr (.inl hnl), (nodeIs_append_one ..).mpr (.inl hnr), hrest⟩

/-! ## Queues in any order -/

theorem QEntry.Apart.symm {a b : QEntry} (h : a.Apart b) : b.Apart a := fun s hb ha => h s ha hb

theorem Forest.perm {freq : Vector Word 256} {arena : List Node} {q q' : List QEntry} (h : Forest freq arena q)
    (hp : q.Perm q') : Forest freq arena q' where
  held e he := h.held e (hp.mem_iff.mpr he)
  distinct := (hp.map _).nodup_iff.mp h.distinct
  forks := h.forks
  leaves := h.leaves
  roots e he := h.roots e (hp.mem_iff.mpr he)
  children i hi hq := h.children i hi fun e he => hq e (hp.mem_iff.mp he)
  apart := (hp.pairwise_iff fun h => h.symm).mp h.apart
  covers b := by simpa only [hp.mem_iff] using h.covers b
  weight := by rw [← (hp.map _).sum_eq]; exact h.weight
  size := by rw [← hp.length_eq]; exact h.size

/-! ## One merge -/

section Merge
variable {freq : Vector Word 256} {arena : List Node} {a b : QEntry} {rest : List QEntry}

/-- The entry of the merged node. -/
def mergedEntry (arena : List Node) (a b : QEntry) : QEntry := { idx := arena.length, node := forkOf a b }

theorem Forest.idx_lt {q : List QEntry} (h : Forest freq arena q) {e : QEntry} (he : e ∈ q) :
    e.idx < arena.length := nodeIs_lt (h.held e he)

/-- The indices of the two merged entries fit in a child field and are not NODE_NONE. -/
theorem Forest.toNat_ofNat_idx (h : Forest freq arena (a :: b :: rest)) {e : QEntry} (he : e ∈ a :: b :: rest) :
    (BitVec.ofNat 9 e.idx).toNat = e.idx ∧ e.idx < 511 := by
  have hlt := h.idx_lt he
  have hsize := h.size
  simp only [List.length_cons] at hsize
  rw [BitVec.toNat_ofNat]
  omega

theorem Forest.merged_weight (h : Forest freq arena (a :: b :: rest)) :
    (forkOf a b).weight.toNat = a.node.weight.toNat + b.node.weight.toNat := by
  have hsum := h.weight
  have := totalCount_lt freq
  simp only [List.map_cons, List.sum_cons] at hsum
  rw [forkOf, Node.weight, BitVec.toNat_add, Nat.mod_eq_of_lt (by omega)]

theorem mem_content_forkOf (s : Byte) : s ∈ (forkOf a b).content ↔ s ∈ a.node.content ∨ s ∈ b.node.content :=
  mem_unionSyms s _ _

theorem Forest.merged_forkOk (h : Forest freq arena (a :: b :: rest)) :
    ForkOk (arena ++ [forkOf a b]) arena.length (a.node.weight + b.node.weight)
      (unionSyms a.node.content b.node.content) (BitVec.ofNat 9 a.idx) (BitVec.ofNat 9 b.idx) := by
  have ha : a ∈ a :: b :: rest := by simp
  have hb : b ∈ a :: b :: rest := by simp
  obtain ⟨hla, -⟩ := h.toNat_ofNat_idx ha
  obtain ⟨hlb, hb511⟩ := h.toNat_ofNat_idx hb
  refine ⟨by rw [hla]; exact h.idx_lt ha, by rw [hlb]; exact h.idx_lt hb, fun hnone => ?_, a.node, b.node, ?_, ?_,
    h.merged_weight, fun s => mem_content_forkOf s, ?_⟩
  · rw [hnone] at hlb
    exact absurd hlb (Nat.ne_of_gt hb511)
  · rw [hla]; exact (nodeIs_append_one ..).mpr (.inl (h.held a ha))
  · rw [hlb]; exact (nodeIs_append_one ..).mpr (.inl (h.held b hb))
  · exact (List.pairwise_cons.mp h.apart).1 b (by simp)

/-- The merged node is the one new parent, of the two merged entries. -/
theorem Forest.parentOf_merged (h : Forest freq arena (a :: b :: rest)) (i p : Nat) :
    ParentOf (arena ++ [forkOf a b]) i p ↔
      ParentOf arena i p ∨ (p = arena.length ∧ (a.idx = i ∨ b.idx = i)) := by
  obtain ⟨hla, -⟩ := h.toNat_ofNat_idx (e := a) (by simp)
  obtain ⟨hlb, -⟩ := h.toNat_ofNat_idx (e := b) (by simp)
  constructor
  · rintro ⟨w, c, l, r, hp, hchild⟩
    obtain hp | ⟨rfl, hfork⟩ := (nodeIs_append_one ..).mp hp
    · exact .inl ⟨w, c, l, r, hp, hchild⟩
    · cases hfork
      rw [hla, hlb] at hchild
      exact .inr ⟨rfl, hchild⟩
  · rintro (⟨w, c, l, r, hp, hchild⟩ | ⟨rfl, hchild⟩)
    · exact ⟨w, c, l, r, (nodeIs_append_one ..).mpr (.inl hp), hchild⟩
    · exact ⟨_, _, _, _, (nodeIs_append_one ..).mpr (.inr ⟨rfl, rfl⟩), by rw [hla, hlb]; exact hchild⟩

/-- A fork's children are nodes of the arena, so an index at or past its end has no parent. -/
theorem Forest.parentOf_lt {q : List QEntry} (h : Forest freq arena q) {i p : Nat} (hp : ParentOf arena i p) :
    i < arena.length := by
  obtain ⟨w, c, l, r, hfork, hchild⟩ := hp
  have hok := h.forks _ _ _ _ _ hfork
  have := nodeIs_lt hfork
  have := hok.left_smaller
  have := hok.right_smaller
  omega

theorem Forest.merged_roots (h : Forest freq arena (a :: b :: rest)) :
    ∀ e ∈ mergedEntry arena a b :: rest, ∀ p, ¬ ParentOf (arena ++ [forkOf a b]) e.idx p := by
  have hlen : ∀ e ∈ a :: b :: rest, e.idx < arena.length := fun e he => h.idx_lt he
  have hdistinct := h.distinct
  simp only [List.map_cons, List.nodup_cons, List.mem_cons, not_or, List.mem_map, not_exists, not_and] at hdistinct
  obtain ⟨⟨-, harest⟩, hbrest, -⟩ := hdistinct
  intro e he p hp
  obtain rfl | he := List.mem_cons.mp he <;> obtain hp | ⟨-, hp⟩ := (h.parentOf_merged _ p).mp hp
  · exact absurd (h.parentOf_lt hp) (lt_irrefl _)
  · have := hlen a (by simp)
    have := hlen b (by simp)
    simp only [mergedEntry] at hp
    omega
  · exact h.roots e (by simp [he]) p hp
  · exact hp.elim (fun ha => harest e he ha.symm) fun hb => hbrest e he hb.symm

theorem Forest.merged_children (h : Forest freq arena (a :: b :: rest)) (i : Nat)
    (hi : i < (arena ++ [forkOf a b]).length) (hq : ∀ e ∈ mergedEntry arena a b :: rest, e.idx ≠ i) :
    ∃! p, ParentOf (arena ++ [forkOf a b]) i p := by
  have hne : arena.length ≠ i := hq (mergedEntry arena a b) (by simp)
  have hi : i < arena.length := by simp only [List.length_append, List.length_singleton] at hi; omega
  by_cases hab : a.idx = i ∨ b.idx = i
  · have hold : ∀ p, ¬ ParentOf arena i p := by
      obtain rfl | rfl := hab
      · exact h.roots a (by simp)
      · exact h.roots b (by simp)
    refine ⟨arena.length, (h.parentOf_merged i _).mpr (.inr ⟨rfl, hab⟩), fun p hp => ?_⟩
    obtain hp | ⟨hp, -⟩ := (h.parentOf_merged i p).mp hp
    · exact absurd hp (hold p)
    · exact hp
  · have hold : ∀ e ∈ a :: b :: rest, e.idx ≠ i := by
      intro e he
      obtain rfl | rfl | he := by simpa using he
      · exact fun h => hab (.inl h)
      · exact fun h => hab (.inr h)
      · exact hq e (by simp [he])
    obtain ⟨p, hp, huniq⟩ := h.children i hi hold
    refine ⟨p, (h.parentOf_merged i p).mpr (.inl hp), fun p' hp' => ?_⟩
    obtain hp' | ⟨-, hp'⟩ := (h.parentOf_merged i p').mp hp'
    · exact huniq p' hp'
    · exact absurd hp' hab

theorem Forest.merged_apart (h : Forest freq arena (a :: b :: rest)) :
    (mergedEntry arena a b :: rest).Pairwise QEntry.Apart := by
  obtain ⟨ha, hbrest⟩ := List.pairwise_cons.mp h.apart
  obtain ⟨hb, hrest⟩ := List.pairwise_cons.mp hbrest
  refine List.pairwise_cons.mpr ⟨fun e he s hs => ?_, hrest⟩
  obtain hs | hs := (mem_content_forkOf s).mp hs
  · exact ha e (by simp [he]) s hs
  · exact hb e he s hs

theorem Forest.merged_covers (h : Forest freq arena (a :: b :: rest)) (s : Byte) :
    (∃ e ∈ mergedEntry arena a b :: rest, s ∈ e.node.content) ↔ tget freq s ≠ 0 := by
  rw [← h.covers s]
  simp only [List.exists_mem_cons_iff, mergedEntry, mem_content_forkOf, or_assoc]

/-- A merge of the queue's first two entries keeps the forest, whatever their keys. -/
theorem Forest.merge (h : Forest freq arena (a :: b :: rest)) :
    Forest freq (arena ++ [forkOf a b]) (mergedEntry arena a b :: rest) where
  held e he := by
    obtain rfl | he := List.mem_cons.mp he
    · exact (nodeIs_append_one ..).mpr (.inr ⟨rfl, rfl⟩)
    · exact (nodeIs_append_one ..).mpr (.inl (h.held e (by simp [he])))
  distinct := by
    have hdistinct := h.distinct
    simp only [List.map_cons, List.nodup_cons] at hdistinct ⊢
    refine ⟨fun hmem => ?_, hdistinct.2.2⟩
    obtain ⟨e, he, hidx⟩ := List.mem_map.mp hmem
    exact absurd (h.idx_lt (e := e) (by simp [he])) (by rw [hidx]; exact lt_irrefl _)
  forks i w c l r hi := by
    obtain hi | ⟨rfl, hfork⟩ := (nodeIs_append_one ..).mp hi
    · exact (h.forks _ _ _ _ _ hi).append_one _
    · cases hfork; exact h.merged_forkOk
  leaves i b w hi := by
    obtain hi | ⟨-, hfork⟩ := (nodeIs_append_one ..).mp hi
    · exact h.leaves _ _ _ hi
    · cases hfork
  roots := h.merged_roots
  children := h.merged_children
  apart := h.merged_apart
  covers := h.merged_covers
  weight := by
    have hsum := h.weight
    simp only [List.map_cons, List.sum_cons, mergedEntry, h.merged_weight] at hsum ⊢
    omega
  size := by
    have hsize := h.size
    simp only [List.length_append, List.length_cons, List.length_nil] at hsize ⊢
    omega

end Merge

/-! ## The merge loop -/

theorem insertKey_perm (e : QEntry) (q : List QEntry) : (insertKey e q).Perm (e :: q) := by
  induction q with
  | nil => exact .refl _
  | cons x xs ih =>
    unfold insertKey
    split
    · exact .refl _
    · exact (ih.cons x).trans (.swap e x xs)

/-- Enough fuel leaves one entry, the root of the one tree. -/
theorem mergeLoop_forest {freq : Vector Word 256} (fuel : Nat) (arena : List Node) (q : List QEntry)
    (h : Forest freq arena q) (hq : q ≠ []) (hfuel : q.length ≤ fuel + 1) :
    ∃ arena' e, mergeLoop fuel arena q = (arena', [e]) ∧ Forest freq arena' [e] := by
  induction fuel generalizing arena q with
  | zero =>
    obtain ⟨e, rfl⟩ := List.length_eq_one_iff.mp (Nat.le_antisymm hfuel (List.length_pos_of_ne_nil hq))
    exact ⟨arena, e, rfl, h⟩
  | succ fuel ih =>
    match q with
    | [e] => exact ⟨arena, e, rfl, h⟩
    | a :: b :: rest =>
      have hperm := insertKey_perm (mergedEntry arena a b) rest
      refine ih _ _ (h.merge.perm hperm.symm) (fun hnil => ?_) ?_
      · exact absurd (hperm.length_eq.symm.trans (congrArg List.length hnil)) (Nat.succ_ne_zero _)
      · exact hperm.length_eq.trans_le (Nat.le_of_succ_le_succ hfuel)

/-! ## The leaves -/

/-- The nodes with their indices, numbered from k on, in the arena's order. -/
def numbered (k : Nat) (ns : List Node) : List QEntry := (ns.zipIdx k).map fun p => { idx := p.2, node := p.1 }

theorem queueOf_perm (k : Nat) (ns : List Node) : (queueOf k ns).Perm (numbered k ns) := by
  induction ns generalizing k with
  | nil => exact .refl _
  | cons n ns ih => exact (insertKey_perm _ _).trans ((ih (k + 1)).cons _)

theorem map_idx_numbered (ns : List Node) : (numbered 0 ns).map QEntry.idx = List.range ns.length := by
  simp [numbered, List.zipIdx_map_snd, List.range_eq_range', Function.comp_def]

theorem map_node_numbered (k : Nat) (ns : List Node) : (numbered k ns).map QEntry.node = ns := by
  simp [numbered, Function.comp_def]

theorem mem_numbered (ns : List Node) (e : QEntry) : e ∈ numbered 0 ns ↔ nodeIs ns e.idx e.node := by
  simp only [numbered, nodeIs, List.mem_map, Prod.exists, List.mk_mem_zipIdx_iff_getElem?]
  exact ⟨fun ⟨_, _, h, he⟩ => he ▸ h, fun h => ⟨e.node, e.idx, h, rfl⟩⟩

theorem nodeIs_leavesOf {freq : Vector Word 256} {i : Nat} {n : Node} (h : nodeIs (leavesOf freq) i n) :
    ∃ b, n = .leaf b ((tget freq b).setWidth 64) ∧ tget freq b ≠ 0 := by
  obtain ⟨b, hb, rfl⟩ := List.mem_map.mp (List.mem_of_getElem? h)
  exact ⟨b, rfl, (mem_present freq b).mp hb⟩

theorem toNat_setWidth_dword (v : Word) : (v.setWidth 64 : DWord).toNat = v.toNat := by
  rw [BitVec.toNat_setWidth, Nat.mod_eq_of_lt (by have := v.isLt; omega)]

theorem sum_weight_leavesOf (freq : Vector Word 256) :
    ((leavesOf freq).map fun n => n.weight.toNat).sum = totalCount freq := by
  rw [totalCount_eq_sum, leavesOf, List.map_map, ← sum_map_present _ freq fun b hb => by rw [hb]; rfl]
  simp only [Function.comp_def, Node.weight, toNat_setWidth_dword]

/-- Before the first merge every leaf is a tree of its own. -/
theorem forest_leavesOf (freq : Vector Word 256) :
    Forest freq (leavesOf freq) (numbered 0 (leavesOf freq)) where
  held e he := (mem_numbered _ e).mp he
  distinct := by rw [map_idx_numbered]; exact List.nodup_range
  forks i w c l r hi := by obtain ⟨b, hb, -⟩ := nodeIs_leavesOf hi; cases hb
  leaves i b w hi := by
    obtain ⟨b, hb, hne⟩ := nodeIs_leavesOf hi
    cases hb
    exact ⟨toNat_setWidth_dword _, hne⟩
  roots e he p := by
    rintro ⟨w, c, l, r, hp, -⟩
    obtain ⟨b, hb, -⟩ := nodeIs_leavesOf hp
    cases hb
  children i hi hq := absurd rfl (hq ⟨i, (leavesOf freq)[i]⟩ ((mem_numbered _ _).mpr (List.getElem?_eq_getElem hi)))
  apart := by
    have hnodes : ((numbered 0 (leavesOf freq)).map QEntry.node).Pairwise
        fun m n => ∀ s, s ∈ m.content → s ∉ n.content := by
      rw [map_node_numbered, leavesOf, List.pairwise_map]
      refine (pairwise_present freq).imp fun {b c} hlt s hb hc => ?_
      simp only [Node.content, List.mem_singleton] at hb hc
      exact absurd hlt (by rw [← hb, ← hc]; exact BitVec.lt_irrefl s)
    exact List.pairwise_map (f := QEntry.node) |>.mp hnodes
  covers b := by
    rw [← mem_present freq b]
    constructor
    · rintro ⟨e, he, hb⟩
      obtain ⟨c, hc, hne⟩ := nodeIs_leavesOf ((mem_numbered _ e).mp he)
      rw [hc, Node.content, List.mem_singleton] at hb
      rwa [hb, mem_present]
    · intro hb
      obtain ⟨i, hi⟩ := List.mem_iff_getElem?.mp (List.mem_map_of_mem hb : _ ∈ leavesOf freq)
      exact ⟨⟨i, _⟩, (mem_numbered _ _).mpr hi, List.mem_singleton.mpr rfl⟩
  weight := by
    rw [← sum_weight_leavesOf freq]
    conv_rhs => rw [← map_node_numbered 0 (leavesOf freq), List.map_map]
    rfl
  size := by
    have := length_present_le freq
    simp only [numbered, List.length_map, List.length_zipIdx, leavesOf]
    omega

/-! ## The tree -/

/-- A forest of one tree is a tree with that root. -/
theorem Forest.treeOk {freq : Vector Word 256} {arena : List Node} {e : QEntry} (h : Forest freq arena [e]) :
    TreeOk freq arena (BitVec.ofNat 9 e.idx) := by
  have he : e ∈ [e] := List.mem_singleton.mpr rfl
  have hroot : (BitVec.ofNat 9 e.idx).toNat = e.idx := by
    have := h.idx_lt he
    have hsize := h.size
    rw [List.length_singleton] at hsize
    rw [BitVec.toNat_ofNat, Nat.mod_eq_of_lt (by omega)]
  constructor
  case two_children => exact fun i w c l r hi _ => (h.forks i w c l r hi).children
  case one_child => exact fun i w c l hi => absurd rfl (h.forks i w c l _ hi).has_right
  case children_smaller =>
    exact fun i w c l r hi => ⟨(h.forks i w c l r hi).left_smaller, fun _ => (h.forks i w c l r hi).right_smaller⟩
  case one_parent =>
    intro i hi hne
    refine h.children i hi fun x hx => ?_
    rw [List.mem_singleton.mp hx, ← hroot]
    exact hne.symm
  case root_free =>
    intro p w c l r hp
    rw [hroot]
    exact ⟨fun hl => h.roots e he p ⟨w, c, l, r, hp, .inl hl⟩, fun hr => h.roots e he p ⟨w, c, l, r, hp, .inr hr⟩⟩
  case leaf_weight => exact h.leaves
  case root_content =>
    exact ⟨e.node, by rw [hroot]; exact h.held e he, fun b => by simpa using h.covers b⟩

/-- R155: the leaf and the one-child root of a table with one symbol. -/
def oneSymbolArena (b : Byte) (w : DWord) : List Node := [.leaf b w, .fork w [b] 0 nodeNone]

theorem nodeIs_oneSymbolArena (b : Byte) (w : DWord) (i : Nat) (n : Node) :
    nodeIs (oneSymbolArena b w) i n ↔ (i = 0 ∧ n = .leaf b w) ∨ (i = 1 ∧ n = .fork w [b] 0 nodeNone) := by
  rw [show oneSymbolArena b w = [] ++ [.leaf b w] ++ [.fork w [b] 0 nodeNone] from rfl, nodeIs_append_one,
    nodeIs_append_one]
  simp [nodeIs]

theorem fork_of_oneSymbolArena {b : Byte} {w : DWord} {i : Nat} {w' : DWord} {c : List Byte} {l r : NodeIdx}
    (h : nodeIs (oneSymbolArena b w) i (.fork w' c l r)) : i = 1 ∧ w' = w ∧ c = [b] ∧ l = 0 ∧ r = nodeNone := by
  obtain ⟨-, hn⟩ | ⟨hone, hn⟩ := (nodeIs_oneSymbolArena ..).mp h <;> cases hn
  exact ⟨hone, rfl, rfl, rfl, rfl⟩

theorem treeOk_oneSymbolArena (freq : Vector Word 256) (b : Byte) (hb : present freq = [b]) :
    TreeOk freq (oneSymbolArena b ((tget freq b).setWidth 64)) 1 := by
  have hpresent : ∀ c, tget freq c ≠ 0 ↔ c = b := fun c => by rw [← mem_present, hb, List.mem_singleton]
  have hroot : (1 : NodeIdx).toNat = 1 := rfl
  constructor
  case two_children =>
    intro i w c l r hi hr
    obtain ⟨-, -, -, -, hnone⟩ := fork_of_oneSymbolArena hi
    exact absurd hnone hr
  case one_child =>
    intro i w c l hi
    obtain ⟨rfl, rfl, rfl, rfl, -⟩ := fork_of_oneSymbolArena hi
    exact ⟨rfl, _, rfl, rfl, rfl⟩
  case children_smaller =>
    intro i w c l r hi
    obtain ⟨rfl, rfl, rfl, rfl, rfl⟩ := fork_of_oneSymbolArena hi
    exact ⟨Nat.one_pos, fun h => absurd rfl h⟩
  case one_parent =>
    intro i hi hne
    have hi : i < 2 := hi
    obtain rfl : i = 0 := by omega
    exact ⟨1, ⟨_, _, _, _, rfl, .inl rfl⟩, fun p ⟨_, _, _, _, hp, _⟩ => (fork_of_oneSymbolArena hp).1⟩
  case root_free =>
    intro p w c l r hp
    obtain ⟨rfl, rfl, rfl, rfl, rfl⟩ := fork_of_oneSymbolArena hp
    decide
  case leaf_weight =>
    intro i c w hi
    obtain ⟨-, hn⟩ | ⟨-, hn⟩ := (nodeIs_oneSymbolArena ..).mp hi <;> cases hn
    exact ⟨toNat_setWidth_dword _, (hpresent b).mpr rfl⟩
  case root_content =>
    exact ⟨_, rfl, fun c => by rw [hpresent c, Node.content, List.mem_singleton]⟩

theorem treeOk_buildArena (freq : Vector Word 256) (nsym : BitVec 9) (seed : Nat) (hcounts : Counts freq nsym)
    (hnsym : nsym ≠ 0) : TreeOk freq (buildArena freq nsym seed).1 (buildArena freq nsym seed).2 := by
  by_cases hone : nsym = 1
  · have hlen : (present freq).length = 1 := by rw [← hcounts, hone]; rfl
    obtain ⟨b, hb⟩ := List.length_eq_one_iff.mp hlen
    have harena : buildArena freq nsym seed = (oneSymbolArena b ((tget freq b).setWidth 64), 1) := by
      simp [buildArena, hone, leavesOf, hb, Node.weight, Node.minSym, Node.content, oneSymbolArena]
    rw [harena]
    exact treeOk_oneSymbolArena freq b hb
  · have hperm := queueOf_perm 0 (leavesOf freq)
    have hlen : (queueOf 0 (leavesOf freq)).length = (leavesOf freq).length := by
      rw [hperm.length_eq, numbered, List.length_map, List.length_zipIdx]
    have hpos : (leavesOf freq).length ≠ 0 := by
      rw [leavesOf, List.length_map, ← hcounts]
      exact fun h => hnsym (BitVec.eq_of_toNat_eq h)
    obtain ⟨arena, e, hloop, hforest⟩ := mergeLoop_forest (leavesOf freq).length (leavesOf freq) _
      ((forest_leavesOf freq).perm hperm.symm) (fun hnil => hpos (by rw [← hlen, hnil]; rfl)) (by omega)
    have harena : buildArena freq nsym seed = (arena, BitVec.ofNat 9 e.idx) := by
      simp only [buildArena, if_neg hone, hloop]
    rw [harena]
    exact hforest.treeOk

end Sys2Proof.Machine

namespace Sys2Proof.Proofs
open Sys2Proof.Machine

/-- Settles O32: BUILD_TREE leaves FREQ and gives the arena and root of `buildArena`. -/
theorem builtTreeInvariants : Obligations.BuiltTreeInvariants := by
  intro s t hraced htable hnsym hcounts h
  obtain ⟨hno, -⟩ | ⟨-, hno, -⟩ | ⟨-, -, hrun⟩ := runBuildTree_cases s
  · exact absurd htable (by simp [hno])
  · exact absurd hno hnsym
  · have hexec : exec .buildTree s = .next s.treeBuilt.completeOk := by
      rw [← Run.complete_ok, ← hrun]; exact finish_unraced _ s _ hraced
    cases hexec.symm.trans h
    exact treeOk_buildArena s.freq s.nsym s.draws hcounts hnsym

end Sys2Proof.Proofs
end

section
/-! PROOFS. The promises of the four validity flags (10_state.md R45), kept by every step of an unraced machine. The
promises speak of the flags, the tables, the tree, the codes and PAY_* alone, so an update of any other field keeps
them by unfolding; each command is then one lemma about what its pseudocode leaves. -/

namespace Sys2Proof.Machine

/-! ## Flags freshly set or cleared -/

/-- Where only the table may be valid, its promise is the only one. -/
theorem State.TableTruthful.flagsTruthful {s : State} (htable : s.TableTruthful) (htree : s.treeValid = false)
    (hcodes : s.codesValid = false) (hhdr : s.hdrValid = false) : s.FlagsTruthful :=
  ⟨htable, fun h => absurd h (by simp [htree]), fun h => absurd h (by simp [hcodes]),
    fun h => absurd h (by simp [hhdr])⟩

/-- R45: flags that are 0 promise nothing. -/
theorem State.flagsNone_truthful (s : State) : s.flagsNone.FlagsTruthful :=
  State.TableTruthful.flagsTruthful (fun h => absurd h (by simp)) rfl rfl rfl

theorem State.counted_truthful (s : State) (bs : List Byte) (h : bs.length < 2 ^ 32) :
    (s.loadTable (histogram bs) bs.length).flagsTable.FlagsTruthful := by
  refine State.TableTruthful.flagsTruthful (fun _ => ⟨toNat_ofNat_length_present _, ?_⟩) rfl rfl rfl
  calc (BitVec.ofNat 64 bs.length).toNat = bs.length := by rw [BitVec.toNat_ofNat, Nat.mod_eq_of_lt (by omega)]
    _ = totalCount (histogram bs) := (totalCount_histogram bs h).symm

theorem State.treeBuilt_truthful (s : State) (hs : s.FlagsTruthful) (htable : s.tableValid = true)
    (hnsym : s.nsym ≠ 0) : s.treeBuilt.FlagsTruthful := by
  obtain ⟨ht, -, -, hh⟩ := hs
  exact ⟨ht, fun _ => ⟨htable, hnsym, s.draws, rfl⟩, fun h => absurd h Bool.false_ne_true, hh⟩

theorem State.loadCodes_truthful (s : State) (hs : s.FlagsTruthful) (htree : s.treeValid = true) :
    (s.loadCodes (codesOf s.arena s.root s.draws)).FlagsTruthful := by
  obtain ⟨ht, hr, -, hh⟩ := hs
  refine ⟨ht, hr, fun _ => ⟨htree, ⟨s.draws, rfl⟩, ?_, rfl⟩, hh⟩
  exact Nat.mod_eq_of_lt (codedBits_lt s.freq _)

theorem Window.inRange_iff (w : Window) : w.inRange = true ↔ w.base.toNat + w.len.toNat ≤ 2 ^ 32 :=
  decide_eq_true_iff

/-- R200: the payload window of an accepted header ends where the source window does. -/
theorem State.loadHeader_payWindow_inRange (s : State) (h : Header) (hsrc : s.srcWindow.inRange = true)
    (hlen : headerLen h.nsym ≤ s.srcLen.toNat) : (s.loadHeader h).payWindow.inRange = true := by
  have hrange : s.srcAddr.toNat + s.srcLen.toNat ≤ 2 ^ 32 := (Window.inRange_iff _).mp hsrc
  have := s.srcLen.isLt
  rw [Window.inRange_iff]
  simp only [State.payWindow, State.loadHeader_payAddr, State.loadHeader_payLen, BitVec.toNat_ofNat]
  omega

theorem State.loadHeader_truthful (s : State) (h : Header) (hsrc : s.srcWindow.inRange = true)
    (hp : parseHeader s.mem s.srcAddr.toNat s.srcLen.toNat = .ok h) : (s.loadHeader h).FlagsTruthful := by
  obtain ⟨hpres, htotal, hlen, hfbb⟩ := parseHeader_ok _ _ _ _ hp
  have hfbb8 := finalByteBitsLegal_le _ _ hfbb
  have := totalCount_lt h.freq
  have := s.srcLen.isLt
  have hlen' : (s.loadHeader h).payLen.toNat = s.srcLen.toNat - headerLen h.nsym := by
    rw [State.loadHeader_payLen, BitVec.toNat_ofNat, Nat.mod_eq_of_lt (by omega)]
  have hfbb' : (s.loadHeader h).payFbb.toNat = h.fbb := by
    rw [State.loadHeader_payFbb, BitVec.toNat_ofNat, Nat.mod_eq_of_lt (by omega)]
  refine ⟨fun _ => ⟨?nsym, ?orig⟩, fun h => absurd h Bool.false_ne_true, fun h => absurd h Bool.false_ne_true,
    fun _ => ⟨rfl, s.loadHeader_payWindow_inRange h hsrc hlen, by rw [hlen', hfbb']; exact hfbb⟩⟩
  case nsym => rw [State.loadHeader_nsym, State.loadHeader_freq, ← hpres, toNat_ofNat_length_present]
  case orig => rw [State.loadHeader_origLen, State.loadHeader_freq, htotal, BitVec.toNat_ofNat,
    Nat.mod_eq_of_lt (by omega)]

/-- R187: EMIT_STREAM clears TOTAL_BITS and FINAL_BITS of an empty table only, for which CODES_VALID = 0. -/
theorem State.emitted_truthful (s : State) (hs : s.FlagsTruthful) : s.emitted.FlagsTruthful := by
  obtain ⟨ht, hr, hc, hh⟩ := hs
  refine ⟨ht, hr, fun hv => ?_, hh⟩
  have hcodes := hc hv
  have hnsym : s.nsym ≠ 0 := (hr hcodes.1).2.1
  have hfull : s.emptyTable = false := by rw [State.emptyTable, decide_eq_false hnsym, Bool.and_false]
  have hsame : s.emitted.totalBits = s.totalBits ∧ s.emitted.finalBits = s.finalBits := by
    simp [State.emitted, hfull]
  rw [hsame.1, hsame.2]
  exact hcodes

/-! ## Pseudocode runs -/

/-- The state a run leaves keeps the promises, however the run ends. -/
def Run.Truthful (r : Run) : Prop :=
  match r with
  | .ok s => s.FlagsTruthful
  | .raise _ s => s.FlagsTruthful

theorem Run.Truthful.andThen {r : Run} {k : State → Run} (hr : r.Truthful)
    (hk : ∀ s, r = .ok s → s.FlagsTruthful → (k s).Truthful) : (r.andThen k).Truthful := by
  cases r with
  | ok s => exact hk s rfl hr
  | raise e s => exact hr

theorem Run.Truthful.zeroLength {r : Run} (hr : r.Truthful) : r.zeroLength.Truthful := by
  cases r <;> exact hr

theorem Run.Truthful.complete {r : Run} (hr : r.Truthful) : r.complete.FlagsTruthful := by
  cases r <;> exact hr

section Commands
variable (s : State)

theorem runClear_truthful : (runClear s).Truthful :=
  State.TableTruthful.flagsTruthful (fun h => absurd h Bool.false_ne_true) rfl rfl rfl

theorem runCount_truthful (hs : s.FlagsTruthful) : (runCount s).Truthful := by
  obtain ⟨-, h⟩ | ⟨-, h⟩ := runCount_cases s <;> rw [h]
  · have hlen : s.srcBytes.length = s.srcLen.toNat := Memory.length_bytes _ _ _
    rw [← hlen]
    exact s.counted_truthful _ (hlen ▸ s.srcLen.isLt)
  · exact hs

theorem runBuildTree_truthful (hs : s.FlagsTruthful) : (runBuildTree s).Truthful := by
  obtain ⟨-, h⟩ | ⟨-, -, h⟩ | ⟨htable, hnsym, h⟩ := runBuildTree_cases s <;> rw [h]
  · exact hs
  · exact hs
  · exact s.treeBuilt_truthful hs htable hnsym

theorem runAssignCodes_truthful (hs : s.FlagsTruthful) : (runAssignCodes s).Truthful := by
  obtain ⟨-, h⟩ | ⟨htree, h⟩ := runAssignCodes_cases s <;> rw [h]
  · exact hs
  · exact s.loadCodes_truthful hs htree

theorem runEmitStream_truthful (hs : s.FlagsTruthful) : (runEmitStream s).Truthful := by
  obtain ⟨e, -, h⟩ | h | ⟨-, -, -, -, -, -, h⟩ := runEmitStream_cases s <;> rw [h]
  · exact hs
  · exact hs
  · exact s.emitted_truthful hs

theorem runParseHeader_truthful (hs : s.FlagsTruthful) : (runParseHeader s).Truthful := by
  obtain ⟨-, h⟩ | ⟨-, e, -, h⟩ | ⟨hsrc, hd, hp, h⟩ := runParseHeader_cases s <;> rw [h]
  · exact hs
  · exact State.flagsNone_truthful _
  · exact s.loadHeader_truthful hd hsrc hp

theorem runDecodePayload_truthful (hs : s.FlagsTruthful) : (runDecodePayload s).Truthful := by
  obtain ⟨e, -, h⟩ | ⟨e, -, h⟩ | ⟨out, -, -, -, -, -, -, -, h⟩ := runDecodePayload_cases s <;> rw [h]
  · exact hs
  · exact hs
  · exact hs

theorem runBuildAndAssign_truthful (hs : s.FlagsTruthful) : (runBuildAndAssign s).Truthful := by
  unfold runBuildAndAssign
  split
  · exact hs
  · exact (runBuildTree_truthful s hs).andThen fun t _ => runAssignCodes_truthful t

theorem runEncode_truthful (hs : s.FlagsTruthful) : (runEncode s).Truthful :=
  (((runCount_truthful s hs).andThen fun t _ => runBuildAndAssign_truthful t).andThen
    fun t _ => runEmitStream_truthful t).zeroLength

theorem runBuildIfAny_truthful (hs : s.FlagsTruthful) : (runBuildIfAny s).Truthful := by
  unfold runBuildIfAny
  split
  · exact hs
  · exact runBuildTree_truthful s hs

theorem runDecode_truthful (hs : s.FlagsTruthful) : (runDecode s).Truthful :=
  (((runParseHeader_truthful s hs).andThen fun t _ => runBuildIfAny_truthful t).andThen
    fun t _ => runDecodePayload_truthful t).zeroLength

end Commands

/-! ## Steps -/

theorem finish_truthful (fp : Footprint) (s t : State) (r : Run) (hraced : s.raced = false) (hr : r.Truthful)
    (h : finish fp s r = .next t) : t.FlagsTruthful := by
  rw [finish_unraced fp s r hraced] at h
  cases h
  exact hr.complete

/-- An unraced command's completion step keeps the promises. -/
theorem exec_truthful (i : Instr) (s t : State) (hs : s.FlagsTruthful) (hraced : s.raced = false)
    (h : exec i s = .next t) : t.FlagsTruthful := by
  cases i with
  | clear => exact finish_truthful _ s t _ hraced (runClear_truthful s) h
  | count => exact finish_truthful _ s t _ hraced (runCount_truthful s hs) h
  | buildTree => exact finish_truthful _ s t _ hraced (runBuildTree_truthful s hs) h
  | assignCodes => exact finish_truthful _ s t _ hraced (runAssignCodes_truthful s hs) h
  | emitStream => exact finish_truthful _ s t _ hraced (runEmitStream_truthful s hs) h
  | parseHeader => exact finish_truthful _ s t _ hraced (runParseHeader_truthful s hs) h
  | decodePayload => exact finish_truthful _ s t _ hraced (runDecodePayload_truthful s hs) h
  | encode => exact finish_truthful _ s t _ hraced (runEncode_truthful s hs) h
  | decode => exact finish_truthful _ s t _ hraced (runDecode_truthful s hs) h

theorem runWord_truthful (w : Word) (s t : State) (hs : s.FlagsTruthful) (hraced : s.raced = false)
    (h : runWord w s = .next t) : t.FlagsTruthful := by
  obtain ⟨i, -, hrun⟩ | ⟨e, -, hrun⟩ := runWord_cases w s <;> rw [hrun] at h
  · exact exec_truthful i s t hs hraced h
  · cases h; exact hs

theorem State.writeReg_truthful (s : State) (r : Reg) (v : Word) (hs : s.FlagsTruthful) :
    (s.writeReg r v).FlagsTruthful := by
  obtain h | h | h | h | ⟨-, h | h | h | h | h | h⟩ := s.writeReg_cases r v <;> rw [h] <;> exact hs

theorem State.busWrite_truthful (s : State) (off : Byte) (v : Word) (hs : s.FlagsTruthful) :
    (s.busWrite off v).FlagsTruthful := by
  unfold State.busWrite
  split
  · exact hs
  · split
    · exact hs
    · exact s.writeReg_truthful _ v hs

theorem State.assertReset_truthful (s : State) : s.assertReset.FlagsTruthful :=
  State.TableTruthful.flagsTruthful (fun h => absurd h Bool.false_ne_true) rfl rfl rfl

/-- No event of the outside world breaks a promise, raced or not: reset clears the flags, the rest leaves every field
the promises speak of. -/
theorem State.event_truthful (s : State) (e : HostEvent) (hs : s.FlagsTruthful) : (s.event e).FlagsTruthful := by
  cases e with
  | write off v => exact s.busWrite_truthful off v hs
  | read off => exact hs
  | memWrite a b => rw [State.event, State.outsideWrite_eq]; exact hs
  | memRead a => exact hs
  | rstAssert => exact s.assertReset_truthful
  | rstRelease => exact hs

theorem State.turn_truthful (s : State) (hs : s.FlagsTruthful) : s.turn.FlagsTruthful := by
  cases h : s.inputs with
  | nil => rw [s.turn_nil h]; exact hs
  | cons e rest => rw [s.turn_cons e rest h]; exact State.event_truthful _ e hs

end Sys2Proof.Machine

namespace Sys2Proof.Proofs
open Sys2Proof.Machine

/-- Settles O56: a turn of the outside world keeps the promises by `State.turn_truthful`, a completion step by
`runWord_truthful`. -/
theorem stepKeepsFlagsTruthful : Obligations.StepKeepsFlagsTruthful := by
  intro s t hs hraced h
  obtain ⟨-, hstep⟩ | ⟨f, -, -, hstep⟩ | ⟨f, -, -, hstep⟩ := step_cases s <;> rw [hstep] at h
  · cases h; exact s.turn_truthful hs
  · exact runWord_truthful f.word s t hs hraced h
  · cases h; exact State.turn_truthful s.countDown hs

end Sys2Proof.Proofs
end

section
/-! PROOFS. What the register bus reads: words put together bit by bit (10_state.md R23, R39) and the register map
(R20). -/

namespace Sys2Proof.Machine

/-! ## Bits of a register word -/

theorem getLsbD_bitAt (b : Bool) (k j : Nat) : (bitAt b k).getLsbD j = (b && decide (j = k) && decide (j < 32)) := by
  cases b
  · simp [bitAt]
  · rw [bitAt, if_pos rfl, BitVec.getLsbD_ofNat, Nat.testBit_two_pow]
    simp [eq_comm, Bool.and_comm]

/-- A field of a word is what its bits say. -/
theorem extractLsb'_eq_of_bits (v : Word) (a w : Nat) (u : BitVec w)
    (h : ∀ i < w, v.getLsbD (a + i) = u.getLsbD i) : v.extractLsb' a w = u := by
  refine BitVec.eq_of_getLsbD_eq fun i hi => ?_
  rw [BitVec.getLsbD_extractLsb', decide_eq_true hi, Bool.true_and, h i hi]

/-- Bit j of STATUS. -/
theorem State.getLsbD_statusWord (s : State) (j : Nat) (hj : j < 32) :
    s.statusWord.getLsbD j =
      (s.busy && decide (j = 0) || s.done && decide (j = 1) || s.err && decide (j = 2) || s.wbusy && decide (j = 3)
        || !decide (j < 8) && s.errCode.code.getLsbD (j - 8)
        || s.tableValid && decide (j = 16) || s.treeValid && decide (j = 17) || s.codesValid && decide (j = 18)
        || s.hdrValid && decide (j = 19) || !decide (j < 24) && s.lastOp.getLsbD (j - 24)) := by
  simp only [State.statusWord, BitVec.getLsbD_or, getLsbD_bitAt, BitVec.getLsbD_shiftLeft, BitVec.getLsbD_setWidth, hj,
    decide_true, Bool.and_true, Bool.true_and, show j - 8 < 32 by omega, show j - 24 < 32 by omega]

theorem shiftRight_setWidth_eq_extract {n : Nat} (v : BitVec n) (k w : Nat) :
    (v >>> k).setWidth w = v.extractLsb' k w := by
  ext i hi
  simp

theorem loWord_eq_extract (v : DWord) : loWord v = v.extractLsb' 0 32 := shiftRight_setWidth_eq_extract v 0 32

theorem hiWord_eq_extract (v : DWord) : hiWord v = v.extractLsb' 32 32 := shiftRight_setWidth_eq_extract v 32 32

/-! ## A node's words (R39) -/

/-- NODE_INFO with FORK = f, HAS_RIGHT = r and the symbol m. -/
def infoWord (f r : Bool) (m : Byte) : Word := bitAt true 31 ||| bitAt f 30 ||| bitAt r 29 ||| m.setWidth 32

theorem nodeInfoWord_leaf (b : Byte) (w : DWord) : nodeInfoWord (.leaf b w) = infoWord false false b := by
  simp [nodeInfoWord, infoWord, bitAt]

theorem nodeInfoWord_fork (w : DWord) (c : List Byte) (l r : NodeIdx) :
    nodeInfoWord (.fork w c l r) = infoWord true (decide (r ≠ nodeNone)) (Node.minSym (.fork w c l r)) := rfl

/-- NODE_INFO of any node, its two flags left open. -/
theorem nodeInfoWord_eq (n : Node) : ∃ f r, nodeInfoWord n = infoWord f r n.minSym := by
  cases n with
  | leaf b w => exact ⟨false, false, nodeInfoWord_leaf b w⟩
  | fork w c l r => exact ⟨true, decide (r ≠ nodeNone), rfl⟩

theorem getLsbD_infoWord (f r : Bool) (m : Byte) (j : Nat) (hj : j < 32) :
    (infoWord f r m).getLsbD j =
      (decide (j = 31) || f && decide (j = 30) || r && decide (j = 29) || m.getLsbD j) := by
  simp only [infoWord, BitVec.getLsbD_or, getLsbD_bitAt, BitVec.getLsbD_setWidth, hj, decide_true, Bool.and_true,
    Bool.true_and]

theorem infoWord_valid (f r : Bool) (m : Byte) : (infoWord f r m).getLsbD 31 = true := by
  simp [getLsbD_infoWord f r m 31 (by decide)]

theorem infoWord_fork (f r : Bool) (m : Byte) : (infoWord f r m).getLsbD 30 = f := by
  rw [getLsbD_infoWord f r m 30 (by decide)]; simp

theorem infoWord_hasRight (f r : Bool) (m : Byte) : (infoWord f r m).getLsbD 29 = r := by
  rw [getLsbD_infoWord f r m 29 (by decide)]; simp

theorem infoWord_rsvd (f r : Bool) (m : Byte) : (infoWord f r m).extractLsb' 8 21 = 0 := by
  refine extractLsb'_eq_of_bits _ _ _ _ fun i hi => ?_
  rw [getLsbD_infoWord f r m _ (by omega)]
  simp [show 8 + i ≠ 31 by omega, show 8 + i ≠ 30 by omega, show 8 + i ≠ 29 by omega]

theorem infoWord_symbol (f r : Bool) (m : Byte) : (infoWord f r m).extractLsb' 0 8 = m := by
  refine extractLsb'_eq_of_bits _ _ _ _ fun i hi => ?_
  rw [getLsbD_infoWord f r m _ (by omega)]
  simp [show i ≠ 31 by omega, show i ≠ 30 by omega, show i ≠ 29 by omega]

/-- NODE_LINK with RIGHT = r and LEFT = l. -/
def linkWord (r l : NodeIdx) : Word := (r.setWidth 32 <<< 16) ||| l.setWidth 32

theorem getLsbD_linkWord (r l : NodeIdx) (j : Nat) (hj : j < 32) :
    (linkWord r l).getLsbD j = (!decide (j < 16) && r.getLsbD (j - 16) || l.getLsbD j) := by
  simp only [linkWord, BitVec.getLsbD_or, BitVec.getLsbD_shiftLeft, BitVec.getLsbD_setWidth, hj, decide_true,
    Bool.true_and, show j - 16 < 32 by omega]

theorem linkWord_right (r l : NodeIdx) : (linkWord r l).extractLsb' 16 9 = r := by
  refine extractLsb'_eq_of_bits _ _ _ _ fun i hi => ?_
  rw [getLsbD_linkWord r l _ (by omega),
    l.getLsbD_of_ge (16 + i) (by omega)]
  simp

theorem linkWord_left (r l : NodeIdx) : (linkWord r l).extractLsb' 0 9 = l := by
  refine extractLsb'_eq_of_bits _ _ _ _ fun i hi => ?_
  rw [getLsbD_linkWord r l _ (by omega)]
  simp [show i < 16 by omega]

theorem linkWord_rsvdHigh (r l : NodeIdx) : (linkWord r l).extractLsb' 25 7 = 0 := by
  refine extractLsb'_eq_of_bits _ _ _ _ fun i hi => ?_
  rw [getLsbD_linkWord r l _ (by omega),
    l.getLsbD_of_ge (25 + i) (by omega), r.getLsbD_of_ge (25 + i - 16) (by omega)]
  simp

theorem linkWord_rsvdLow (r l : NodeIdx) : (linkWord r l).extractLsb' 9 7 = 0 := by
  refine extractLsb'_eq_of_bits _ _ _ _ fun i hi => ?_
  rw [getLsbD_linkWord r l _ (by omega)]
  simp [show 9 + i < 16 by omega]

theorem nodeLinkWord_leaf (b : Byte) (w : DWord) : nodeLinkWord (.leaf b w) = linkWord nodeNone nodeNone := rfl

theorem nodeLinkWord_fork (w : DWord) (c : List Byte) (l r : NodeIdx) :
    nodeLinkWord (.fork w c l r) = linkWord r l := rfl

/-- NODE_LINK of any node. -/
theorem nodeLinkWord_eq (n : Node) : ∃ r l, nodeLinkWord n = linkWord r l := by
  cases n with
  | leaf b w => exact ⟨nodeNone, nodeNone, rfl⟩
  | fork w c l r => exact ⟨r, l, rfl⟩

theorem State.nodeView_of_none (s : State) (f : Node → Word) (h : s.arena[s.tblIndex.toNat]? = none) :
    s.nodeView f = 0 := by simp [State.nodeView, State.tblNode, h]

theorem State.nodeView_of_some (s : State) (f : Node → Word) (n : Node) (h : s.arena[s.tblIndex.toNat]? = some n) :
    s.nodeView f = f n := by simp [State.nodeView, State.tblNode, h]

/-! ## The register map -/

theorem State.busRead_of_idle (s : State) (off : Byte) (r : Reg) (hidle : s.busy = false)
    (hreg : regAt off = some r) : s.busRead off = s.readReg r := by
  simp only [State.busRead, hreg, hidle, Bool.false_and, Bool.false_eq_true, if_false]

theorem State.busRead_of_unused (s : State) (off : Byte) (hreg : regAt off = none) : s.busRead off = 0 := by
  simp [State.busRead, hreg]

/-! The registers whose value is more than a field: one equation each. -/

theorem State.readReg_origLenLo (s : State) : s.readReg .origLenLo = loWord s.origLen := rfl
theorem State.readReg_origLenHi (s : State) : s.readReg .origLenHi = hiWord s.origLen := rfl
theorem State.readReg_totalBitsLo (s : State) : s.readReg .totalBitsLo = loWord s.totalBits := rfl
theorem State.readReg_totalBitsHi (s : State) : s.readReg .totalBitsHi = hiWord s.totalBits := rfl
theorem State.readReg_freqData (s : State) : s.readReg .freqData = tget s.freq s.tblSym := rfl
theorem State.readReg_codeLenData (s : State) :
    s.readReg .codeLenData = (tget s.codeLen s.tblSym).setWidth 32 := rfl
theorem State.readReg_codeBitsData (s : State) (j : Fin 8) :
    s.readReg (.codeBitsData j) = (tget s.codeBits s.tblSym >>> (32 * j.val)).setWidth 32 := rfl
theorem State.readReg_nodeInfo (s : State) : s.readReg .nodeInfo = s.nodeView nodeInfoWord := rfl
theorem State.readReg_nodeLink (s : State) : s.readReg .nodeLink = s.nodeView nodeLinkWord := rfl
theorem State.readReg_nodeWLo (s : State) : s.readReg .nodeWLo = s.nodeView fun n => loWord n.weight := rfl
theorem State.readReg_nodeWHi (s : State) : s.readReg .nodeWHi = s.nodeView fun n => hiWord n.weight := rfl

theorem regAt_unused (off : Byte) (h : 0x90 ≤ off.toNat) : regAt off = none := by
  revert off
  decide

theorem regAt_codeBitsData (j : Fin 8) : regAt (BitVec.ofNat 8 (0x60 + 4 * j.val)) = some (.codeBitsData j) := by
  revert j
  decide

theorem State.tblSym_eq_extract (s : State) : s.tblSym = s.tblIndex.extractLsb' 0 8 := by
  ext i hi
  simp [State.tblSym]

end Sys2Proof.Machine

namespace Sys2Proof.Proofs
open Sys2Proof.Machine

/-- Settles O12: each named offset is a register of the map, and reads it while idle; the rest read 0. -/
theorem registerMapReads : Obligations.RegisterMapReads := by
  intro s hidle
  have read (off : Byte) (r : Reg) (hreg : regAt off = some r) := s.busRead_of_idle off r hidle hreg
  refine ⟨read 0x24 .resultLen rfl, read 0x28 .nsym rfl, ?origLo, ?origHi, ?totalLo, ?totalHi,
    read 0x3C .finalBits rfl, read 0x40 .root rfl, read 0x44 .nodeCount rfl, read 0x48 .payAddr rfl,
    read 0x4C .payLen rfl, read 0x50 .payFbb rfl, ?freq, ?codeLen, ?codeBits,
    fun off hoff => s.busRead_of_unused off (regAt_unused off hoff)⟩
  case origLo => rw [read 0x2C .origLenLo rfl, s.readReg_origLenLo, loWord_eq_extract]
  case origHi => rw [read 0x30 .origLenHi rfl, s.readReg_origLenHi, hiWord_eq_extract]
  case totalLo => rw [read 0x34 .totalBitsLo rfl, s.readReg_totalBitsLo, loWord_eq_extract]
  case totalHi => rw [read 0x38 .totalBitsHi rfl, s.readReg_totalBitsHi, hiWord_eq_extract]
  case freq => rw [read 0x58 .freqData rfl, s.readReg_freqData, s.tblSym_eq_extract]
  case codeLen => rw [read 0x5C .codeLenData rfl, s.readReg_codeLenData, s.tblSym_eq_extract]
  case codeBits =>
    intro j
    rw [read _ _ (regAt_codeBitsData j), s.readReg_codeBitsData, shiftRight_setWidth_eq_extract,
      s.tblSym_eq_extract]

/-- Settles O13: every field is read off the bits of STATUS. -/
theorem statusWordFields : Obligations.StatusWordFields := by
  intro s
  have flag (j : Nat) (hj : j < 32) := s.getLsbD_statusWord j hj
  refine ⟨?busy, ?done, ?err, ?wbusy, ?rsvd7_4, ?errCode, ?table, ?tree, ?codes, ?hdr, ?rsvd23_20, ?lastOp⟩
  case busy | done | err | wbusy | table | tree | codes | hdr => rw [flag _ (by decide)]; simp
  case rsvd7_4 | rsvd23_20 | errCode | lastOp =>
    refine extractLsb'_eq_of_bits _ _ _ _ fun i hi => ?_
    rw [flag _ (by omega)]
    interval_cases i <;> simp

/-- Settles O14: the four registers show one node of the arena, and its two words hold their fields apart. -/
theorem nodeReadback : Obligations.NodeReadback := by
  intro s hidle
  rw [s.busRead_of_idle 0x80 .nodeInfo hidle rfl, s.busRead_of_idle 0x84 .nodeLink hidle rfl,
    s.busRead_of_idle 0x88 .nodeWLo hidle rfl, s.busRead_of_idle 0x8C .nodeWHi hidle rfl,
    s.readReg_nodeInfo, s.readReg_nodeLink, s.readReg_nodeWLo, s.readReg_nodeWHi]
  refine ⟨fun hlen => ?absent, fun n hn => ?present⟩
  case absent =>
    have hnone := List.getElem?_eq_none hlen
    simp only [s.nodeView_of_none _ hnone, and_self]
  case present =>
    simp only [s.nodeView_of_some _ n hn]
    obtain ⟨f, r, hinfo⟩ := nodeInfoWord_eq n
    obtain ⟨right, left, hlink⟩ := nodeLinkWord_eq n
    refine ⟨hinfo ▸ infoWord_valid .., hinfo ▸ infoWord_rsvd .., hinfo ▸ infoWord_symbol ..,
      hlink ▸ linkWord_rsvdHigh .., hlink ▸ linkWord_rsvdLow .., loWord_eq_extract _, hiWord_eq_extract _, ?leaf, ?fork⟩
    case leaf =>
      rintro b w rfl
      rw [nodeInfoWord_leaf, nodeLinkWord_leaf]
      exact ⟨infoWord_fork .., infoWord_hasRight .., linkWord_right .., linkWord_left ..⟩
    case fork =>
      rintro w c l r rfl
      rw [nodeInfoWord_fork, nodeLinkWord_fork, infoWord_hasRight, decide_eq_true_iff]
      exact ⟨infoWord_fork .., Iff.rfl, linkWord_right .., linkWord_left ..⟩

end Sys2Proof.Proofs
end

section
/-! PROOFS. Stores into a window: what a command does to memory, said apart from what memory held (20_memory.md
R65). -/

namespace Sys2Proof.Machine

/-- f stores into the window w, and what it stores does not depend on the memory it is given. -/
structure StoresIn (w : Window) (f : Memory → Memory) : Prop where
  wf : ∀ m, m.wf = true → (f m).wf = true
  outside : ∀ m a, w.contains a = false → (f m).read a = m.read a
  alike : ∀ m m' a, m.wf = true → m'.wf = true →
    (f m).read a = (f m').read a ∨ ((f m).read a = m.read a ∧ (f m').read a = m'.read a)

theorem StoresIn.nothing (w : Window) : StoresIn w id :=
  ⟨fun _ h => h, fun _ _ _ => rfl, fun _ _ _ _ _ => .inr ⟨rfl, rfl⟩⟩

theorem StoresIn.comp {w : Window} {f g : Memory → Memory} (hg : StoresIn w g) (hf : StoresIn w f) :
    StoresIn w (g ∘ f) where
  wf m h := hg.wf _ (hf.wf m h)
  outside m a h := (hg.outside _ a h).trans (hf.outside m a h)
  alike m m' a h h' := by
    obtain heq | ⟨hm, hm'⟩ := hg.alike (f m) (f m') a (hf.wf m h) (hf.wf m' h')
    · exact .inl heq
    · simp only [Function.comp_apply, hm, hm']
      exact hf.alike m m' a h h'

theorem Memory.write_of_past (m : Memory) (a : Nat) (b : Byte) (h : ¬ a < addrSpace) : m.write a b = m := if_neg h

theorem StoresIn.write {w : Window} {a : Nat} (b : Byte) (ha : w.contains a = true) :
    StoresIn w fun m => m.write a b where
  wf m h := m.wf_write a b h
  outside m x hx := m.read_write_other a x b fun h => by simp [h, ha] at hx
  alike m m' x h h' := by
    by_cases hx : x = a
    · subst hx
      by_cases hspace : x < addrSpace
      · exact .inl ((m.read_write_same x b h hspace).trans (m'.read_write_same x b h' hspace).symm)
      · exact .inr (by simp only [Memory.write_of_past _ _ _ hspace, and_self])
    · exact .inr ⟨m.read_write_other a x b hx, m'.read_write_other a x b hx⟩

theorem Window.contains_iff (w : Window) (a : Nat) :
    w.contains a = true ↔ w.base.toNat ≤ a ∧ a < w.base.toNat + w.len.toNat := decide_eq_true_iff

theorem StoresIn.writeBytes {w : Window} {a : Nat} (bs : List Byte) (hlo : w.base.toNat ≤ a)
    (hhi : a + bs.length ≤ w.base.toNat + w.len.toNat) : StoresIn w fun m => m.writeBytes a bs := by
  induction bs generalizing a with
  | nil => exact .nothing w
  | cons b bs ih =>
    rw [List.length_cons] at hhi
    exact (ih (by omega) (by omega)).comp (.write b ((w.contains_iff a).mpr ⟨hlo, by omega⟩))

/-! ## Runs as functions of the memory they find -/

/-- The state with another memory. -/
def State.setMem (s : State) (m : Memory) : State := { s with mem := m }

/-- The run with another memory at its end. -/
def Run.setMem (r : Run) (m : Memory) : Run :=
  match r with
  | .ok s => .ok (s.setMem m)
  | .raise e s => .raise e (s.setMem m)

/-- From s with any memory in P, k runs the same way, and does one f in W to the memory. -/
def Uniform (P : Memory → Prop) (W : (Memory → Memory) → Prop) (k : State → Run) (s : State) : Prop :=
  ∃ f, W f ∧ ∀ m, P m → k (s.setMem m) = (k s).setMem (f m)

/-- k does nothing to memory. -/
abbrev Quiet (P : Memory → Prop) (k : State → Run) (s : State) : Prop := Uniform P (· = id) k s

section Uniform
variable {P : Memory → Prop} {W : (Memory → Memory) → Prop} {k k' : State → Run} {s : State}

theorem Uniform.mono {W' : (Memory → Memory) → Prop} (h : Uniform P W k s) (hW : ∀ f, W f → W' f) :
    Uniform P W' k s := by
  obtain ⟨f, hf, hk⟩ := h
  exact ⟨f, hW f hf, hk⟩

theorem Quiet.eq (h : Quiet P k s) {m : Memory} (hm : P m) : k (s.setMem m) = (k s).setMem m := by
  obtain ⟨_, rfl, hk⟩ := h
  exact hk m hm

theorem Uniform.raise (e : ErrCode) (hW : W id) : Uniform P W (Run.raise e) s := ⟨id, hW, fun _ _ => rfl⟩

/-- A choice that memory does not decide. -/
theorem Uniform.ite {c : State → Prop} [∀ t, Decidable (c t)] (hc : ∀ m, P m → (c (s.setMem m) ↔ c s))
    (hk : c s → Uniform P W k s) (hk' : ¬ c s → Uniform P W k' s) :
    Uniform P W (fun t => if c t then k t else k' t) s := by
  by_cases h : c s
  · obtain ⟨f, hf, heq⟩ := hk h
    exact ⟨f, hf, fun m hm => by simpa only [if_pos ((hc m hm).mpr h), if_pos h] using heq m hm⟩
  · obtain ⟨f, hf, heq⟩ := hk' h
    exact ⟨f, hf, fun m hm => by simpa only [if_neg (mt (hc m hm).mp h), if_neg h] using heq m hm⟩

/-- A check before any access. -/
theorem Uniform.guard {e : ErrCode} {c : State → Prop} [∀ t, Decidable (c t)] (hW : W id)
    (hc : ∀ m, c (s.setMem m) ↔ c s) (hk' : ¬ c s → Uniform P W k' s) :
    Uniform P W (fun t => if c t then .raise e t else k' t) s :=
  .ite (fun m _ => hc m) (fun _ => .raise e hW) hk'

theorem Uniform.zeroLength (h : Uniform P W k s) : Uniform P W (fun t => (k t).zeroLength) s := by
  obtain ⟨f, hf, hk⟩ := h
  refine ⟨f, hf, fun m hm => ?_⟩
  simp only [hk m hm]
  cases k s <;> rfl

/-- A step that leaves memory alone, then another. -/
theorem Uniform.andThen (hk : Quiet P k s) (hw : W id) (hk' : ∀ t, k s = .ok t → Uniform P W k' t) :
    Uniform P W (fun t => (k t).andThen k') s := by
  cases h : k s with
  | ok t =>
    obtain ⟨f, hf, heq⟩ := hk' t h
    exact ⟨f, hf, fun m hm => by simp only [hk.eq hm, h]; exact heq m hm⟩
  | raise e t => exact ⟨id, hw, fun m hm => by simp only [hk.eq hm, h]; rfl⟩

end Uniform
end Sys2Proof.Machine
end

section
/-! PROOFS. A command reads memory only inside its read windows and stores only inside its destination window: from
memories that agree on the first its pseudocode runs the same way, whatever the flags and tables (20_memory.md R65,
R66). -/

namespace Sys2Proof.Machine

/-- m holds what the memory of s holds in each of the windows. -/
def State.Agrees (s : State) (ws : List Window) (m : Memory) : Prop :=
  ∀ w ∈ ws, ∀ a, w.contains a = true → m.read a = s.mem.read a

theorem State.Agrees.read {s : State} {w : Window} {m : Memory} (h : s.Agrees [w] m) {a : Nat}
    (hlo : w.base.toNat ≤ a) (hhi : a < w.base.toNat + w.len.toNat) : m.read a = s.mem.read a :=
  h w (List.mem_singleton_self w) a ((w.contains_iff a).mpr ⟨hlo, hhi⟩)

theorem State.Agrees.srcBytes {s : State} {m : Memory} (h : s.Agrees [s.srcWindow] m) :
    (s.setMem m).srcBytes = s.srcBytes :=
  Memory.bytes_congr m s.mem _ _ fun _ => h.read

/-! ## Headers (45_decoder.md R200, R201) -/

theorem parseEntries_congr (m m' : Memory) (n a : Nat) (e : Entries)
    (h : ∀ x, a ≤ x → x < a + 5 * n → m.read x = m'.read x) : parseEntries m n a e = parseEntries m' n a e := by
  induction n generalizing a e with
  | zero => rfl
  | succ n ih =>
    have hsym : m.read a = m'.read a := h a le_rfl (by omega)
    have hfreq : m.beRead (a + 1) 4 = m'.beRead (a + 1) 4 :=
      Memory.beRead_congr m m' _ _ fun x hlo hhi => h x (by omega) (by omega)
    have hrest : ∀ e, parseEntries m n (a + 5) e = parseEntries m' n (a + 5) e :=
      fun e => ih _ e fun x hlo hhi => h x (by omega) (by omega)
    simp only [parseEntries, hsym, hfreq, hrest]

theorem parseBody_congr (m m' : Memory) (a len n : Nat) (hlen : headerLen n ≤ len)
    (h : ∀ x, a ≤ x → x < a + len → m.read x = m'.read x) : parseBody m a len n = parseBody m' a len n := by
  unfold headerLen at hlen
  have horig : m.beRead (a + 4) 8 = m'.beRead (a + 4) 8 :=
    Memory.beRead_congr m m' _ _ fun x hlo hhi => h x (by omega) (by omega)
  have hentries : ∀ e, parseEntries m n (a + 12) e = parseEntries m' n (a + 12) e :=
    fun e => parseEntries_congr m m' n _ e fun x hlo hhi => h x (by omega) (by omega)
  have hfbb : m.read (a + 12 + 5 * n) = m'.read (a + 12 + 5 * n) := h _ (by omega) (by omega)
  have hlast : m.read (a + len - 1) = m'.read (a + len - 1) := h _ (by omega) (by omega)
  have hpad : ∀ p fbb, paddingBad m a len p fbb = paddingBad m' a len p fbb := fun p fbb => by
    simp only [paddingBad, hlast]
  simp only [parseBody, horig, hentries, hfbb, hpad]

/-- What a header says depends on the stream's bytes alone. -/
theorem parseHeader_congr (m m' : Memory) (a len : Nat) (h : ∀ x, a ≤ x → x < a + len → m.read x = m'.read x) :
    parseHeader m a len = parseHeader m' a len := by
  unfold parseHeader
  split_ifs with hshort
  · rfl
  · have hcount : m.beRead a 4 = m'.beRead a 4 :=
      Memory.beRead_congr m m' a 4 fun x hlo hhi => h x hlo (by omega)
    simp only [hcount]
    split_ifs with hmany hlen
    · rfl
    · rfl
    · exact parseBody_congr m m' a len _ (by omega) h

/-- R202: an accepted header's payload window lies inside the source window. -/
theorem State.loadHeader_payWindow_contains (s : State) (h : Header) (hsrc : s.srcWindow.inRange = true)
    (hlen : headerLen h.nsym ≤ s.srcLen.toNat) (a : Nat) (ha : (s.loadHeader h).payWindow.contains a = true) :
    s.srcWindow.contains a = true := by
  have hrange : s.srcAddr.toNat + s.srcLen.toNat ≤ 2 ^ 32 := (Window.inRange_iff _).mp hsrc
  have := s.srcLen.isLt
  rw [Window.contains_iff] at ha ⊢
  simp only [State.payWindow, State.loadHeader_payAddr, State.loadHeader_payLen, BitVec.toNat_ofNat,
    State.srcWindow] at ha ⊢
  omega

/-! ## Stores into the destination window -/

/-- What a command may do to memory: store into the destination window, or nothing if it has none. -/
structure CommandStores (w : Window) (emitting : Bool) (f : Memory → Memory) : Prop where
  inside : StoresIn w f
  quiet : emitting = false → f = id

theorem CommandStores.nothing (w : Window) (emitting : Bool) : CommandStores w emitting id :=
  ⟨.nothing w, fun _ => rfl⟩

theorem StoresIn.command {w : Window} {f : Memory → Memory} (h : StoresIn w f) : CommandStores w true f :=
  ⟨h, fun h => absurd h Bool.false_ne_true.symm⟩

theorem Quiet.command {P : Memory → Prop} {k : State → Run} {s : State} {w : Window} {emitting : Bool}
    (h : Quiet P k s) : Uniform P (CommandStores w emitting) k s :=
  h.mono fun _ hf => hf ▸ .nothing w emitting

theorem Uniform.command {P : Memory → Prop} {k : State → Run} {s : State} {w : Window}
    (h : Uniform P (StoresIn w) k s) : Uniform P (CommandStores w true) k s :=
  h.mono fun _ hf => hf.command

theorem State.scrambleDst_storesIn (s : State) :
    StoresIn s.dstWindow fun m => m.scramble s.dstAddr.toNat s.dstCap.toNat s.draws :=
  .writeBytes _ le_rfl (by simp [State.dstWindow])

/-- The stream of EMIT_STREAM put into another memory. -/
def State.streamInto (s : State) (m : Memory) : Memory :=
  (m.writeBytes s.dstAddr.toNat ((headerStart s.freq s.nsym.toNat s.origLen.toNat).take s.emitSize)).writeBytes
    (s.dstAddr.toNat + (headerLen s.nsym.toNat - 1))
    ((BitVec.ofNat 8 s.emitFinalBits :: packBits s.emitBits).take (s.emitSize - (headerLen s.nsym.toNat - 1)))

theorem State.emitMem_setMem (s : State) (m : Memory) (h : (s.setMem m).srcBytes = s.srcBytes) :
    (s.setMem m).emitMem = s.streamInto m := by
  have hbits : (s.setMem m).emitBits = s.emitBits := by unfold State.emitBits; rw [h]; rfl
  unfold State.emitMem
  rw [hbits]
  rfl

theorem State.streamInto_storesIn (s : State) (hfits : s.emitSize ≤ s.dstCap.toNat) :
    StoresIn s.dstWindow s.streamInto := by
  have hsize : headerLen s.nsym.toNat - 1 ≤ s.emitSize := by unfold State.emitSize; omega
  refine .comp (.writeBytes _ ?_ ?_) (.writeBytes _ ?_ ?_) <;>
    simp only [State.dstWindow, List.length_take] <;> omega

theorem length_of_walkSymbols_ok (arena : List Node) (seed : Nat) (root : NodeIdx) (n : Nat) (bits rest : List Bool)
    (bs : List Byte) (h : walkSymbols arena seed root n bits = .ok (bs, rest)) : bs.length = n := by
  induction n generalizing bits bs with
  | zero => cases h; rfl
  | succ n ih =>
    unfold walkSymbols at h
    split at h
    · cases h
    · split at h
      · cases h
      · next hrec => cases h; rw [List.length_cons, ih _ _ hrec]

/-- R210: an accepted payload has ORIG_LEN symbols. -/
theorem State.length_of_decodeOutput_ok (s : State) (out : List Byte) (h : s.decodeOutput = .ok out) :
    out.length = s.origLen.toNat := by
  unfold State.decodeOutput at h
  split at h
  · cases h
  · next hwalk =>
    split_ifs at h
    cases h
    exact length_of_walkSymbols_ok _ _ _ _ _ _ _ hwalk

/-! ## What the steps before the last one of a composite leave alone -/

/-- The windows and memory of t are those of s. -/
structure SameWindows (s t : State) : Prop where
  src : t.srcWindow = s.srcWindow
  dst : t.dstWindow = s.dstWindow
  pay : t.payWindow = s.payWindow
  mem : t.mem = s.mem

theorem SameWindows.refl (s : State) : SameWindows s s := ⟨rfl, rfl, rfl, rfl⟩

theorem SameWindows.trans {s t u : State} (h : SameWindows s t) (h' : SameWindows t u) : SameWindows s u :=
  ⟨h'.src.trans h.src, h'.dst.trans h.dst, h'.pay.trans h.pay, h'.mem.trans h.mem⟩

theorem runCount_sameWindows {s t : State} (h : runCount s = .ok t) : SameWindows s t := by
  obtain ⟨-, hrun⟩ | ⟨-, hrun⟩ := runCount_cases s <;> cases hrun.symm.trans h
  exact ⟨rfl, rfl, rfl, rfl⟩

theorem runBuildTree_sameWindows {s t : State} (h : runBuildTree s = .ok t) : SameWindows s t := by
  obtain ⟨-, hrun⟩ | ⟨-, -, hrun⟩ | ⟨-, -, hrun⟩ := runBuildTree_cases s <;> cases hrun.symm.trans h
  exact ⟨rfl, rfl, rfl, rfl⟩

theorem runAssignCodes_sameWindows {s t : State} (h : runAssignCodes s = .ok t) : SameWindows s t := by
  obtain ⟨-, hrun⟩ | ⟨-, hrun⟩ := runAssignCodes_cases s <;> cases hrun.symm.trans h
  exact ⟨rfl, rfl, rfl, rfl⟩

theorem runBuildAndAssign_sameWindows {s t : State} (h : runBuildAndAssign s = .ok t) : SameWindows s t := by
  unfold runBuildAndAssign at h
  split at h
  · cases h; exact .refl s
  · obtain ⟨u, hu, ht⟩ := (Run.andThen_eq_ok _ _ t).mp h
    exact (runBuildTree_sameWindows hu).trans (runAssignCodes_sameWindows ht)

theorem runBuildIfAny_sameWindows {s t : State} (h : runBuildIfAny s = .ok t) : SameWindows s t := by
  unfold runBuildIfAny at h
  split at h
  · cases h; exact .refl s
  · exact runBuildTree_sameWindows h

theorem runParseHeader_ok {s t : State} (h : runParseHeader s = .ok t) :
    ∃ hd, s.srcWindow.inRange = true ∧ headerLen hd.nsym ≤ s.srcLen.toNat ∧ t = s.loadHeader hd := by
  obtain ⟨-, hrun⟩ | ⟨-, e, -, hrun⟩ | ⟨hsrc, hd, hp, hrun⟩ := runParseHeader_cases s <;> cases hrun.symm.trans h
  obtain ⟨-, -, hlen, -⟩ := parseHeader_ok _ _ _ hd hp
  exact ⟨hd, hsrc, hlen, rfl⟩

/-! ## One lemma a command -/

section Commands
variable (s : State) (P : Memory → Prop)

theorem runClear_quiet : Quiet P runClear s := ⟨id, rfl, fun _ _ => rfl⟩

theorem runBuildTree_quiet : Quiet P runBuildTree s :=
  .guard rfl (fun _ => Iff.rfl) fun _ =>
    .guard rfl (fun _ => Iff.rfl) fun _ => ⟨id, rfl, fun _ _ => rfl⟩

theorem runAssignCodes_quiet : Quiet P runAssignCodes s :=
  .guard rfl (fun _ => Iff.rfl) fun _ => ⟨id, rfl, fun _ _ => rfl⟩

theorem runBuildAndAssign_quiet : Quiet P runBuildAndAssign s :=
  .ite (fun _ _ => Iff.rfl) (fun _ => ⟨id, rfl, fun _ _ => rfl⟩) fun _ =>
    .andThen (runBuildTree_quiet s P) rfl fun t _ => runAssignCodes_quiet t P

theorem runBuildIfAny_quiet : Quiet P runBuildIfAny s :=
  .ite (fun _ _ => Iff.rfl) (fun _ => ⟨id, rfl, fun _ _ => rfl⟩) fun _ => runBuildTree_quiet s P

variable {P}

theorem runCount_quiet (hP : ∀ m, P m → s.Agrees [s.srcWindow] m) : Quiet P runCount s :=
  .ite (fun _ _ => Iff.rfl) (fun _ => ⟨id, rfl, fun m hm => by simp only [(hP m hm).srcBytes]; rfl⟩) fun _ =>
    .raise _ rfl

theorem runParseHeader_quiet (hP : ∀ m, P m → s.Agrees [s.srcWindow] m) : Quiet P runParseHeader s := by
  refine .guard rfl (fun _ => Iff.rfl) fun _ => ⟨id, rfl, fun m hm => ?_⟩
  have hparse : parseHeader (s.setMem m).mem (s.setMem m).srcAddr.toNat (s.setMem m).srcLen.toNat =
      parseHeader s.mem s.srcAddr.toNat s.srcLen.toNat :=
    parseHeader_congr m s.mem _ _ fun _ => (hP m hm).read
  simp only [hparse]
  cases parseHeader s.mem s.srcAddr.toNat s.srcLen.toNat <;> rfl

theorem runEmitStream_stores (hP : ∀ m, P m → s.Agrees [s.srcWindow] m) :
    Uniform P (StoresIn s.dstWindow) runEmitStream s := by
  refine .zeroLength <| .guard (.nothing _) (fun _ => Iff.rfl) fun _ =>
    .guard (.nothing _) (fun _ => Iff.rfl) fun _ =>
    .guard (.nothing _) (fun _ => Iff.rfl) fun _ =>
    .guard (.nothing _) (fun _ => Iff.rfl) fun hfits =>
    .ite (fun m hm => by rw [(hP m hm).srcBytes]; rfl) (fun _ => ?mismatch) fun _ => ?ok
  case mismatch => exact ⟨_, s.scrambleDst_storesIn, fun _ _ => rfl⟩
  case ok =>
    refine ⟨s.streamInto, s.streamInto_storesIn (by omega), fun m hm => ?_⟩
    simp only [State.emitted, s.emitMem_setMem m (hP m hm).srcBytes]
    rfl

theorem State.decodeOutput_setMem (m : Memory) (h : s.Agrees [s.payWindow] m) :
    (s.setMem m).decodeOutput = s.decodeOutput := by
  have hbits : (s.setMem m).payloadBits = s.payloadBits := s.payloadBits_congr m fun _ => h.read
  simp only [State.decodeOutput, hbits]
  rfl

theorem runDecodePayload_stores (hP : ∀ m, P m → s.Agrees [s.payWindow] m) :
    Uniform P (StoresIn s.dstWindow) runDecodePayload s := by
  refine .zeroLength <| .guard (.nothing _) (fun _ => Iff.rfl) fun _ =>
    .guard (.nothing _) (fun _ => Iff.rfl) fun _ =>
    .guard (.nothing _) (fun _ => Iff.rfl) fun _ =>
    .guard (.nothing _) (fun _ => Iff.rfl) fun hfits => ?_
  cases hout : s.decodeOutput with
  | error e =>
    refine ⟨_, s.scrambleDst_storesIn, fun m hm => ?_⟩
    simp only [s.decodeOutput_setMem m (hP m hm), hout]
    rfl
  | ok out =>
    have hlen := s.length_of_decodeOutput_ok out hout
    refine ⟨_, .writeBytes out le_rfl (?_ : s.dstAddr.toNat + out.length ≤ s.dstAddr.toNat + s.dstCap.toNat),
      fun m hm => ?_⟩
    · omega
    · simp only [s.decodeOutput_setMem m (hP m hm), hout]
      rfl

/-- A step that leaves the windows and memory as they are hands the agreement on. -/
theorem SameWindows.agrees_src {s t : State} {m : Memory} (h : SameWindows s t) (hm : s.Agrees [s.srcWindow] m) :
    t.Agrees [t.srcWindow] m := by
  unfold State.Agrees
  rw [h.src, h.mem]
  exact hm

theorem SameWindows.agrees_pay {s t : State} {m : Memory} (h : SameWindows s t) (hm : s.Agrees [s.payWindow] m) :
    t.Agrees [t.payWindow] m := by
  unfold State.Agrees
  rw [h.pay, h.mem]
  exact hm

theorem runEncode_stores (hP : ∀ m, P m → s.Agrees [s.srcWindow] m) :
    Uniform P (StoresIn s.dstWindow) runEncode s := by
  refine .zeroLength (.andThen
    (.andThen (runCount_quiet s hP) rfl fun t _ => runBuildAndAssign_quiet t P) (.nothing _) fun u hu => ?_)
  obtain ⟨t, ht, hu⟩ := (Run.andThen_eq_ok _ _ u).mp hu
  have hsame := (runCount_sameWindows ht).trans (runBuildAndAssign_sameWindows hu)
  rw [← hsame.dst]
  exact runEmitStream_stores u fun m hm => hsame.agrees_src (hP m hm)

theorem runDecode_stores (hP : ∀ m, P m → s.Agrees [s.srcWindow] m) :
    Uniform P (StoresIn s.dstWindow) runDecode s := by
  refine .zeroLength (.andThen
    (.andThen (runParseHeader_quiet s hP) rfl fun t _ => runBuildIfAny_quiet t P) (.nothing _) fun u hu => ?_)
  obtain ⟨t, ht, hu⟩ := (Run.andThen_eq_ok _ _ u).mp hu
  obtain ⟨h, hsrc, hlen, rfl⟩ := runParseHeader_ok ht
  have hsame := runBuildIfAny_sameWindows hu
  have hdst : u.dstWindow = s.dstWindow := hsame.dst
  rw [← hdst]
  refine runDecodePayload_stores u fun m hm => hsame.agrees_pay ?_
  simp only [State.Agrees, List.mem_singleton, forall_eq]
  exact fun a ha => hP m hm _ (List.mem_singleton_self _) a (s.loadHeader_payWindow_contains h hsrc hlen a ha)

end Commands

/-! ## Every command -/

/-- The pseudocode of a command. -/
def runOf (i : Instr) : State → Run :=
  match i with
  | .clear => runClear
  | .count => runCount
  | .buildTree => runBuildTree
  | .assignCodes => runAssignCodes
  | .emitStream => runEmitStream
  | .parseHeader => runParseHeader
  | .decodePayload => runDecodePayload
  | .encode => runEncode
  | .decode => runDecode

/-- What a command's rule lets it write. -/
def footprintOf (i : Instr) : Footprint :=
  match i with
  | .clear => clearFootprint
  | .count => countFootprint
  | .buildTree => buildTreeFootprint
  | .assignCodes => assignCodesFootprint
  | .emitStream => emitStreamFootprint
  | .parseHeader => parseHeaderFootprint
  | .decodePayload => decodePayloadFootprint
  | .encode => encodeFootprint
  | .decode => decodeFootprint

theorem exec_eq_finish (i : Instr) (s : State) : exec i s = finish (footprintOf i) s (runOf i s) := by
  cases i <;> rfl

theorem footprintOf_output (i : Instr) : (footprintOf i).output = emits i := by cases i <;> rfl

/-- From any memory that agrees on its read windows a command runs the same way and stores the same, and only into its
destination window (R65). -/
theorem runOf_uniform (i : Instr) (s : State) :
    Uniform (s.Agrees (readWindows i s)) (CommandStores s.dstWindow (emits i)) (runOf i) s := by
  cases i with
  | clear => exact (runClear_quiet s _).command
  | count => exact (runCount_quiet s fun _ => id).command
  | buildTree => exact (runBuildTree_quiet s _).command
  | assignCodes => exact (runAssignCodes_quiet s _).command
  | emitStream => exact (runEmitStream_stores s fun _ => id).command
  | parseHeader => exact (runParseHeader_quiet s fun _ => id).command
  | decodePayload => exact (runDecodePayload_stores s fun _ => id).command
  | encode => exact (runEncode_stores s fun _ => id).command
  | decode => exact (runDecode_stores s fun _ => id).command

theorem Run.complete_setMem (r : Run) (m : Memory) : (r.setMem m).complete = r.complete.setMem m := by
  cases r <;> rfl

/-- The completion step of an unraced command, from every memory that agrees on its read windows. -/
theorem exec_of_agrees (i : Instr) (s : State) (hraced : s.raced = false) :
    ∃ f, CommandStores s.dstWindow (emits i) f ∧ ∀ m, s.Agrees (readWindows i s) m →
      exec i (s.setMem m) = .next ((runOf i s).complete.setMem (f m)) := by
  obtain ⟨f, hf, hrun⟩ := runOf_uniform i s
  refine ⟨f, hf, fun m hm => ?_⟩
  have hraced' : (s.setMem m).raced = false := hraced
  rw [exec_eq_finish, finish_unraced _ _ _ hraced', hrun m hm, Run.complete_setMem]

theorem State.agrees_self (s : State) (ws : List Window) : s.Agrees ws s.mem := fun _ _ _ _ => rfl

/-- What the completion step of an unraced command does to the memory it finds. -/
theorem mem_exec_unraced (i : Instr) (s t : State) (hraced : s.raced = false) (h : exec i s = .next t) :
    ∃ f, CommandStores s.dstWindow (emits i) f ∧ t.mem = f s.mem := by
  obtain ⟨f, hf, hexec⟩ := exec_of_agrees i s hraced
  cases (hexec s.mem (s.agrees_self _)).symm.trans h
  exact ⟨f, hf, rfl⟩

theorem exec_raced (i : Instr) (s : State) (hraced : s.raced = true) :
    exec i s = .next (raceComplete (footprintOf i) s) := by
  rw [exec_eq_finish, finish_raced _ _ _ hraced]

theorem mem_raceComplete_of_quiet (fp : Footprint) (s : State) (h : fp.output = false) :
    (raceComplete fp s).mem = s.mem := by
  simp [raceComplete, scramble, h]

end Sys2Proof.Machine

namespace Sys2Proof.Proofs
open Sys2Proof.Machine

/-- Settles O24: an unraced command only stores into its destination window (`mem_exec_unraced`), a raced one gives
that window free values if its footprint has it. -/
theorem writesOnlyDestinationWindow : Obligations.WritesOnlyDestinationWindow := by
  intro i s t h
  cases hraced : s.raced with
  | false =>
    obtain ⟨f, hf, hmem⟩ := mem_exec_unraced i s t hraced h
    rw [SameOutside, hmem]
    exact ⟨hf.inside.outside s.mem, fun hquiet a => by rw [hf.quiet hquiet]; rfl⟩
  | true =>
    cases (exec_raced i s hraced).symm.trans h
    refine ⟨fun a => read_raceComplete_outside _ s a, fun hquiet a => ?_⟩
    rw [mem_raceComplete_of_quiet _ s ((footprintOf_output i).trans hquiet)]

/-- Settles O25: the same stores f are done to both memories (`exec_of_agrees`), on the same run. -/
theorem readsOnlyItsWindows : Obligations.ReadsOnlyItsWindows := by
  intro i s m hraced hwf hwf' hagrees
  obtain ⟨f, hf, hexec⟩ := exec_of_agrees i s hraced
  exact ⟨_, _, hexec s.mem (s.agrees_self _), hexec m hagrees, rfl,
    fun a => hf.inside.alike s.mem m a hwf hwf'⟩

end Sys2Proof.Proofs
end

section
/-! PROOFS. The shape of a state, kept by every step: canonical memory, at most 511 nodes (10_state.md R43), no command
in flight under reset (70_reset_and_hazards.md R262). -/

namespace Sys2Proof.Machine

theorem State.shapeOk_iff (s : State) :
    s.shapeOk = true ↔ s.mem.wf = true ∧ s.arena.length ≤ 511 ∧ (s.rst = true → s.inflight = none) := by
  simp only [State.shapeOk, State.busy_eq, Bool.and_eq_true, decide_eq_true_iff, Bool.not_eq_true', and_assoc]
  cases s.rst <;> simp

/-! ## The arena -/

/-- 256 leaves and 255 merges at most, whatever the table and NSYM. -/
theorem length_buildArena_le (freq : Vector Word 256) (nsym : BitVec 9) (seed : Nat) :
    (buildArena freq nsym seed).1.length ≤ 511 := by
  by_cases hone : nsym = 1
  · simp [buildArena, hone]
  · by_cases hnil : leavesOf freq = []
    · simp only [buildArena, if_neg hone, hnil, queueOf, List.length_nil, mergeLoop, Nat.zero_le]
    · have hperm := queueOf_perm 0 (leavesOf freq)
      have hlen : (queueOf 0 (leavesOf freq)).length = (leavesOf freq).length := by
        rw [hperm.length_eq, numbered, List.length_map, List.length_zipIdx]
      obtain ⟨arena, e, hloop, hforest⟩ := mergeLoop_forest (leavesOf freq).length (leavesOf freq) _
        ((forest_leavesOf freq).perm hperm.symm)
        (fun h => hnil (List.length_eq_zero_iff.mp (by rw [← hlen, h]; rfl))) (by omega)
      have hsize := hforest.size
      rw [List.length_singleton] at hsize
      have harena : (buildArena freq nsym seed).1 = arena := by simp only [buildArena, if_neg hone, hloop]
      rw [harena]
      omega

/-- The state a run leaves has at most 511 nodes, however the run ends. -/
def Run.Bounded (r : Run) : Prop :=
  match r with
  | .ok s => s.arena.length ≤ 511
  | .raise _ s => s.arena.length ≤ 511

theorem Run.Bounded.andThen {r : Run} {k : State → Run} (hr : r.Bounded)
    (hk : ∀ s, s.arena.length ≤ 511 → (k s).Bounded) : (r.andThen k).Bounded := by
  cases r with
  | ok s => exact hk s hr
  | raise e s => exact hr

theorem Run.Bounded.zeroLength {r : Run} (hr : r.Bounded) : r.zeroLength.Bounded := by cases r <;> exact hr

theorem Run.Bounded.complete {r : Run} (hr : r.Bounded) : r.complete.arena.length ≤ 511 := by cases r <;> exact hr

section Commands
variable (s : State) (hs : s.arena.length ≤ 511)

theorem runClear_bounded : (runClear s).Bounded := Nat.zero_le 511

include hs

theorem runCount_bounded : (runCount s).Bounded := by
  obtain ⟨-, h⟩ | ⟨-, h⟩ := runCount_cases s <;> rw [h] <;> exact hs

theorem runBuildTree_bounded : (runBuildTree s).Bounded := by
  obtain ⟨-, h⟩ | ⟨-, -, h⟩ | ⟨-, -, h⟩ := runBuildTree_cases s <;> rw [h]
  · exact hs
  · exact hs
  · exact length_buildArena_le s.freq s.nsym s.draws

theorem runAssignCodes_bounded : (runAssignCodes s).Bounded := by
  obtain ⟨-, h⟩ | ⟨-, h⟩ := runAssignCodes_cases s <;> rw [h] <;> exact hs

theorem runEmitStream_bounded : (runEmitStream s).Bounded := by
  obtain ⟨e, -, h⟩ | h | ⟨-, -, -, -, -, -, h⟩ := runEmitStream_cases s <;> rw [h] <;> exact hs

theorem runParseHeader_bounded : (runParseHeader s).Bounded := by
  obtain ⟨-, h⟩ | ⟨-, e, -, h⟩ | ⟨-, hd, -, h⟩ := runParseHeader_cases s <;> rw [h] <;> exact hs

theorem runDecodePayload_bounded : (runDecodePayload s).Bounded := by
  obtain ⟨e, -, h⟩ | ⟨e, -, h⟩ | ⟨out, -, -, -, -, -, -, -, h⟩ := runDecodePayload_cases s <;> rw [h] <;> exact hs

theorem runBuildAndAssign_bounded : (runBuildAndAssign s).Bounded := by
  unfold runBuildAndAssign
  split
  · exact hs
  · exact (runBuildTree_bounded s hs).andThen runAssignCodes_bounded

theorem runBuildIfAny_bounded : (runBuildIfAny s).Bounded := by
  unfold runBuildIfAny
  split
  · exact hs
  · exact runBuildTree_bounded s hs

theorem runOf_bounded (i : Instr) : (runOf i s).Bounded := by
  cases i with
  | clear => exact runClear_bounded s
  | count => exact runCount_bounded s hs
  | buildTree => exact runBuildTree_bounded s hs
  | assignCodes => exact runAssignCodes_bounded s hs
  | emitStream => exact runEmitStream_bounded s hs
  | parseHeader => exact runParseHeader_bounded s hs
  | decodePayload => exact runDecodePayload_bounded s hs
  | encode =>
    exact (((runCount_bounded s hs).andThen runBuildAndAssign_bounded).andThen runEmitStream_bounded).zeroLength
  | decode =>
    exact (((runParseHeader_bounded s hs).andThen runBuildIfAny_bounded).andThen runDecodePayload_bounded).zeroLength

end Commands

theorem length_arena_raceComplete_le (fp : Footprint) (s : State) (hs : s.arena.length ≤ 511) :
    (raceComplete fp s).arena.length ≤ 511 := by
  unfold raceComplete scramble
  simp only
  split
  · exact length_freeArena_le s.draws
  · exact hs

/-! ## Completion steps -/

/-- A completion step ends the command, so its reset clause is void. -/
theorem exec_shapeOk (i : Instr) (s t : State) (hs : s.shapeOk = true) (h : exec i s = .next t) :
    t.shapeOk = true := by
  obtain ⟨hwf, harena, -⟩ := s.shapeOk_iff.mp hs
  cases hraced : s.raced with
  | false =>
    obtain ⟨f, hf, hmem⟩ := mem_exec_unraced i s t hraced h
    rw [exec_eq_finish, finish_unraced _ _ _ hraced] at h
    cases h
    exact (State.shapeOk_iff _).mpr ⟨hmem ▸ hf.inside.wf _ hwf, (runOf_bounded s harena i).complete,
      fun _ => (Run.complete_status _).1⟩
  | true =>
    cases (exec_raced i s hraced).symm.trans h
    exact (State.shapeOk_iff _).mpr ⟨wf_raceComplete _ s hwf, length_arena_raceComplete_le _ s harena, fun _ => rfl⟩

theorem State.completeIllegal_shapeOk (s : State) (hs : s.shapeOk = true) : s.completeIllegal.shapeOk = true := by
  obtain ⟨hwf, harena, -⟩ := s.shapeOk_iff.mp hs
  exact (State.shapeOk_iff _).mpr ⟨hwf, harena, fun _ => rfl⟩

theorem runWord_shapeOk (w : Word) (s t : State) (hs : s.shapeOk = true) (h : runWord w s = .next t) :
    t.shapeOk = true := by
  obtain ⟨i, -, hrun⟩ | ⟨e, -, hrun⟩ := runWord_cases w s <;> rw [hrun] at h
  · exact exec_shapeOk i s t hs h
  · cases h; exact s.completeIllegal_shapeOk hs

/-! ## Turns of the outside world -/

theorem State.writeReg_keeps (s : State) (r : Reg) (v : Word) :
    (s.writeReg r v).mem = s.mem ∧ (s.writeReg r v).arena = s.arena ∧ (s.writeReg r v).rst = s.rst := by
  obtain h | h | h | h | ⟨-, h | h | h | h | h | h⟩ := s.writeReg_cases r v <;> rw [h] <;> exact ⟨rfl, rfl, rfl⟩

/-- R262: only a write while reset is not asserted can put a command in flight. -/
theorem State.busWrite_shapeOk (s : State) (off : Byte) (v : Word) (hs : s.shapeOk = true) :
    (s.busWrite off v).shapeOk = true := by
  unfold State.busWrite
  split
  · exact hs
  · next hrst =>
    split
    · exact hs
    · next r _ =>
      obtain ⟨hwf, harena, -⟩ := s.shapeOk_iff.mp hs
      obtain ⟨hmem, hnodes, hsame⟩ := s.writeReg_keeps r v
      exact (State.shapeOk_iff _).mpr ⟨hmem ▸ hwf, hnodes ▸ harena, fun h => absurd (hsame ▸ h) hrst⟩

theorem State.wf_abortMem (s : State) (h : s.mem.wf = true) : s.abortMem.wf = true := by
  unfold State.abortMem
  split
  · exact h
  · split
    · exact h
    · exact Memory.wf_scramble _ _ _ _ h

theorem State.event_shapeOk (s : State) (e : HostEvent) (hs : s.shapeOk = true) : (s.event e).shapeOk = true := by
  obtain ⟨hwf, harena, hidle⟩ := s.shapeOk_iff.mp hs
  cases e with
  | write off v => exact s.busWrite_shapeOk off v hs
  | read off => exact hs
  | memWrite a b =>
    rw [State.event, State.outsideWrite_eq]
    refine (State.shapeOk_iff _).mpr ⟨s.mem.wf_write _ b hwf, harena, fun hrst => ?_⟩
    simp only [hidle hrst, Option.map_none, ite_self]
  | memRead a => exact hs
  | rstAssert => exact (State.shapeOk_iff _).mpr ⟨s.wf_abortMem hwf, Nat.zero_le 511, fun _ => rfl⟩
  | rstRelease => exact (State.shapeOk_iff _).mpr ⟨hwf, harena, fun h => absurd h Bool.false_ne_true⟩

theorem State.turn_shapeOk (s : State) (hs : s.shapeOk = true) : s.turn.shapeOk = true := by
  cases h : s.inputs with
  | nil => rw [s.turn_nil h]; exact hs
  | cons e rest => rw [s.turn_cons e rest h]; exact State.event_shapeOk _ e hs

theorem State.countDown_shapeOk (s : State) (hs : s.shapeOk = true) : s.countDown.shapeOk = true := by
  obtain ⟨hwf, harena, hidle⟩ := s.shapeOk_iff.mp hs
  exact (State.shapeOk_iff _).mpr ⟨hwf, harena, fun hrst => by simp [hidle hrst]⟩

end Sys2Proof.Machine

namespace Sys2Proof.Proofs
open Sys2Proof.Machine

/-- Settles O55: a completion step keeps the shape by `runWord_shapeOk`, a turn of the outside world by
`State.turn_shapeOk`. -/
theorem stepKeepsShape : Obligations.StepKeepsShape := by
  intro s t hs h
  obtain ⟨-, hstep⟩ | ⟨f, -, -, hstep⟩ | ⟨f, -, -, hstep⟩ := step_cases s <;> rw [hstep] at h
  · cases h; exact s.turn_shapeOk hs
  · exact runWord_shapeOk f.word s t hs h
  · cases h; exact State.turn_shapeOk _ (s.countDown_shapeOk hs)

/-- Settles O6: a turn, a command's completion step and an illegal word's each answer a next state. -/
theorem noStepStops : Obligations.NoStepStops := by
  intro s
  obtain ⟨-, hstep⟩ | ⟨f, -, -, hstep⟩ | ⟨f, -, -, hstep⟩ := step_cases s <;> rw [hstep]
  · exact ⟨_, rfl⟩
  · obtain ⟨i, -, hrun⟩ | ⟨e, -, hrun⟩ := runWord_cases f.word s <;> rw [hrun]
    · exact exec_answers_next i s
    · exact ⟨_, rfl⟩
  · exact ⟨_, rfl⟩

end Sys2Proof.Proofs
end

section
/-! PROOFS. The decoder accepts exactly the nine opcode words, each an opcode under 24 zero bits (30_encoding.md R80 to
R82). -/

namespace Sys2Proof

theorem decodeOpcode_eq_some_iff (op : Byte) (i : Instr) : decodeOpcode op = some i ↔ op = i.opcode := by
  constructor
  · intro h
    unfold decodeOpcode at h
    split at h <;> cases h <;> exact BitVec.eq_of_toNat_eq ‹_›
  · rintro rfl
    cases i <;> rfl

theorem fields_eq_iff (w : Word) (op : Byte) : rsvdField w = 0 ∧ opcodeField w = op ↔ w = op.setWidth 32 := by
  simp only [rsvdField, opcodeField, ← BitVec.toNat_inj, BitVec.toNat_setWidth]
  omega

theorem decodeWord_eq_ok_iff_fields (w : Word) (i : Instr) :
    decodeWord w = .ok i ↔ rsvdField w = 0 ∧ decodeOpcode (opcodeField w) = some i := by
  unfold decodeWord
  by_cases hrsvd : rsvdField w = 0
  · cases hop : decodeOpcode (opcodeField w) <;> simp [hrsvd]
  · simp [hrsvd]

/-- R81: the whole word decides. -/
theorem decodeWord_eq_ok_iff (w : Word) (i : Instr) : decodeWord w = .ok i ↔ w = i.opcode.setWidth 32 := by
  rw [decodeWord_eq_ok_iff_fields, decodeOpcode_eq_some_iff, fields_eq_iff]

theorem encode_eq_setWidth (i : Instr) : encode i = i.opcode.setWidth 32 := by cases i <;> rfl

theorem decodeWord_encode (i : Instr) : decodeWord (encode i) = .ok i :=
  (decodeWord_eq_ok_iff _ i).mpr (encode_eq_setWidth i)

theorem decodeTableWord_toNat (w : Word) (i : Instr) (h : decodeWord w = .ok i) :
    decodeTableWord 32 w.toNat = some i := by
  simp [decodeTableWord, Nat.mod_eq_of_lt w.isLt, w.isLt, h]

theorem decodeTableWord_encode (i : Instr) : decodeTableWord 32 (encode i).toNat = some i :=
  decodeTableWord_toNat _ i (decodeWord_encode i)

/-! ## Illegal words (R82) -/

theorem extract_rsvd_setWidth (op : Byte) : (op.setWidth 32).extractLsb' 8 24 = 0 :=
  Machine.extractLsb'_eq_of_bits _ _ _ _ fun i hi => by simp

theorem extract_opcode_setWidth (op : Byte) : (op.setWidth 32).extractLsb' 0 8 = op :=
  Machine.extractLsb'_eq_of_bits _ _ _ _ fun i hi => by simp; omega

theorem Instr.opcode_bounds (i : Instr) : i.opcode ≠ 0 ∧ i.opcode.toNat < 0x0A := by cases i <;> decide

theorem decodeWord_ne_ok_of_illegal (w : Word) (i : Instr)
    (h : w.extractLsb' 8 24 ≠ 0 ∨ w.extractLsb' 0 8 = 0 ∨ 0x0A ≤ (w.extractLsb' 0 8).toNat) :
    decodeWord w ≠ .ok i := by
  intro hok
  obtain ⟨hne, hlt⟩ := i.opcode_bounds
  rw [(decodeWord_eq_ok_iff w i).mp hok, extract_rsvd_setWidth, extract_opcode_setWidth] at h
  obtain hrsvd | hzero | hlarge := h
  · exact hrsvd rfl
  · exact hne hzero
  · omega

end Sys2Proof

namespace Sys2Proof.Machine

theorem step_of_due (s : State) (f : InFlight) (h : s.inflight = some f) (hw : f.wait = 0) :
    step s = runWord f.word s := by simp [step, h, hw]

end Sys2Proof.Machine

namespace Sys2Proof.Proofs
open Sys2Proof.Machine

/-- Settles O1: a word decodes by its two fields, and they are those of one word; the values are the opcode map's. -/
theorem decoderMatchesWholeWord : Obligations.DecoderMatchesWholeWord :=
  ⟨decodeWord_eq_ok_iff, rfl, rfl, rfl, rfl, rfl, rfl, rfl, rfl, rfl⟩

/-- Settles O2: each listed word is the number of an encoded command. -/
theorem tableWordsDecode : Obligations.TableWordsDecode :=
  ⟨decodeTableWord_encode .clear, decodeTableWord_encode .buildTree, decodeTableWord_encode .assignCodes,
    decodeTableWord_encode .emitStream, decodeTableWord_encode .parseHeader, decodeTableWord_encode .decode,
    fun i _ => decodeWord_encode i⟩

/-- Settles O3: such a word decodes to no command, so the due completion step is the illegal word's. -/
theorem illegalWordCompletesWithError : Obligations.IllegalWordCompletesWithError := by
  intro s f hf hw hillegal
  obtain ⟨i, hok, -⟩ | ⟨-, -, hrun⟩ := runWord_cases f.word s
  · exact absurd hok (decodeWord_ne_ok_of_illegal f.word i hillegal)
  · rw [step_of_due s f hf hw, hrun]
    rfl

end Sys2Proof.Proofs
end

section
/-! PROOFS. The bit packer's bytes, read bit by bit, are the bits written to it and then zeros (20_memory.md R63,
30_encoding.md R93, 44_encoder.md R186). -/

namespace Sys2Proof.Machine

/-- Bit k of a byte sequence, the most significant bit of a byte first, and 0 past its end (R63). -/
def bitOf (bytes : List Byte) (k : Nat) : Bool := (bytes.getD (k / 8) 0).getLsbD (7 - k % 8)

theorem bitOf_append_zero (bytes : List Byte) (k : Nat) : bitOf (bytes ++ [0]) k = bitOf bytes k := by
  obtain h | h := Nat.lt_or_ge (k / 8) bytes.length
  · simp [bitOf, List.getElem?_append_left h]
  · simp only [bitOf, List.getD_append_right _ _ _ _ h, List.getD_eq_default _ _ h]
    cases k / 8 - bytes.length <;> rfl

/-- Bits set in the byte after `bytes` are set in the sequence, and no others. -/
theorem bitOf_append_or (bytes : List Byte) (x y : Byte) (k : Nat) :
    bitOf (bytes ++ [x ||| y]) k =
      (bitOf (bytes ++ [x]) k || (decide (k / 8 = bytes.length) && y.getLsbD (7 - k % 8))) := by
  obtain h | h | h := Nat.lt_trichotomy (k / 8) bytes.length
  · simp [bitOf, List.getElem?_append_left h, h.ne]
  · simp [bitOf, h]
  · have hx : ∀ z : Byte, (bytes ++ [z]).length ≤ k / 8 := fun z => by simpa using h
    simp only [bitOf, List.getD_eq_default _ _ (hx _), h.ne', decide_false, Bool.false_and, Bool.or_false]

theorem getD_append_one (bs : List Bool) (b : Bool) (k : Nat) :
    (bs ++ [b]).getD k false = (bs.getD k false || (b && decide (k = bs.length))) := by
  obtain h | h | h := Nat.lt_trichotomy k bs.length
  · simp [List.getElem?_append_left h, h.ne]
  · simp [h]
  · rw [List.getD_eq_default _ _ (by simpa using h), List.getD_eq_default _ _ h.le]
    simp [h.ne']

/-- What the packer has written and its partial byte, padded with zero bits. -/
def Packer.padded (p : Packer) : List Byte := p.out ++ [p.acc <<< (8 - p.n)]

theorem Packer.padded_of_empty (out : List Byte) : Packer.padded { acc := 0, n := 0, out := out } = out ++ [0] := by
  simp [Packer.padded]

/-- The packer has taken the bits bs. -/
structure Packer.Holds (p : Packer) (bs : List Bool) : Prop where
  fill : p.n < 8
  size : 8 * p.out.length + p.n = bs.length
  bits : ∀ k, bitOf p.padded k = bs.getD k false

theorem Packer.holds_empty : Packer.Holds { acc := 0, n := 0, out := [] } [] where
  fill := by decide
  size := rfl
  bits k := by rw [Packer.padded_of_empty, bitOf_append_zero]; simp [bitOf]

/-! ### One bit more -/

/-- A byte that holds one bit. -/
def bitByte (b : Bool) : Byte := if b then 1#8 else 0#8

theorem getLsbD_bitByte_shiftLeft (b : Bool) (j i : Nat) (hi : i < 8) :
    (bitByte b <<< j).getLsbD i = (b && decide (i = j)) := by
  cases b
  · simp [bitByte]
  · rw [Bool.eq_iff_iff]
    simp [bitByte, hi]
    omega

theorem Packer.writeBit_of_full (p : Packer) (b : Bool) (h : p.n + 1 = 8) :
    p.writeBit b = { acc := 0, n := 0, out := p.out ++ [p.acc <<< 1 ||| bitByte b] } := if_pos h

theorem Packer.writeBit_of_room (p : Packer) (b : Bool) (h : p.n + 1 ≠ 8) :
    p.writeBit b = { acc := p.acc <<< 1 ||| bitByte b, n := p.n + 1, out := p.out } := if_neg h

/-- The partial byte, padded, gets the new bit in place of the first of its padding bits. -/
theorem shiftLeft_or_bitByte (acc : Byte) (n : Nat) (b : Bool) (hn : n < 8) :
    (acc <<< 1 ||| bitByte b) <<< (7 - n) = acc <<< (8 - n) ||| bitByte b <<< (7 - n) := by
  rw [BitVec.shiftLeft_or_distrib, ← BitVec.shiftLeft_add, show 1 + (7 - n) = 8 - n by omega]

/-- Full or not, the byte that takes the bit stands after p.out: a full one leaves an empty partial byte behind, which
pads to zeros. -/
theorem Packer.bitOf_padded_writeBit (p : Packer) (b : Bool) (k : Nat) :
    bitOf (p.writeBit b).padded k = bitOf (p.out ++ [(p.acc <<< 1 ||| bitByte b) <<< (7 - p.n)]) k := by
  by_cases h : p.n + 1 = 8
  · have h7 : p.n = 7 := by omega
    rw [p.writeBit_of_full b h, Packer.padded_of_empty, bitOf_append_zero, h7, Nat.sub_self, BitVec.shiftLeft_zero]
  · rw [p.writeBit_of_room b h, Packer.padded, Nat.add_comm p.n 1, ← Nat.sub_sub]

theorem Packer.Holds.writeBit {p : Packer} {bs : List Bool} (h : p.Holds bs) (b : Bool) :
    (p.writeBit b).Holds (bs ++ [b]) := by
  obtain ⟨hfill, hsize, hbits⟩ := h
  refine ⟨?fill, ?size, fun k => ?bits⟩
  case bits =>
    have hplace : (k / 8 = p.out.length ∧ 7 - k % 8 = 7 - p.n) ↔ k = bs.length := by omega
    rw [p.bitOf_padded_writeBit b, shiftLeft_or_bitByte _ _ _ hfill, bitOf_append_or,
      getLsbD_bitByte_shiftLeft _ _ _ (by omega), getD_append_one, ← hbits, ← decide_eq_decide.mpr hplace,
      Bool.decide_and, Bool.and_left_comm]
    rfl
  case fill | size =>
    by_cases hfull : p.n + 1 = 8
    · simp only [p.writeBit_of_full b hfull, List.length_append, List.length_singleton]
      omega
    · simp only [p.writeBit_of_room b hfull, List.length_append, List.length_singleton]
      omega

theorem Packer.Holds.foldl {p : Packer} {bs : List Bool} (h : p.Holds bs) (cs : List Bool) :
    (cs.foldl Packer.writeBit p).Holds (bs ++ cs) := by
  induction cs generalizing p bs with
  | nil => simpa using h
  | cons c cs ih => simpa using ih (h.writeBit c)

theorem Packer.Holds.length_flush {p : Packer} {bs : List Bool} (h : p.Holds bs) :
    p.flush.length = ceil8 bs.length := by
  have := h.fill
  have := h.size
  unfold Packer.flush ceil8
  split
  · rw [List.length_append, List.length_singleton]; omega
  · omega

theorem Packer.bitOf_flush (p : Packer) (k : Nat) : bitOf p.flush k = bitOf p.padded k := by
  unfold Packer.flush
  split
  · rfl
  · next hn =>
    have hzero : p.acc <<< (8 - p.n) = 0 := BitVec.shiftLeft_eq_zero (by omega)
    rw [Packer.padded, hzero, bitOf_append_zero]

theorem packBits_holds (bs : List Bool) :
    (bs.foldl Packer.writeBit { acc := 0, n := 0, out := [] }).Holds bs := Packer.holds_empty.foldl bs

theorem length_packBits (bs : List Bool) : (packBits bs).length = ceil8 bs.length := (packBits_holds bs).length_flush

/-- The padding bits, and every bit past the bytes, read 0. -/
theorem bitOf_packBits (bs : List Bool) (k : Nat) : bitOf (packBits bs) k = bs.getD k false := by
  rw [packBits, Packer.bitOf_flush, (packBits_holds bs).bits]

end Sys2Proof.Machine

namespace Sys2Proof.Proofs
open Sys2Proof.Machine

/-- Settles O40: the code bits by `List.flatMap`, the bytes by the packer's invariant `Packer.Holds`. -/
theorem payloadBitOrder : Obligations.PayloadBitOrder :=
  ⟨fun l c bs b => by simp [encodeBits], fun _ _ => rfl,
    fun bits => ⟨length_packBits bits, fun k _ => bitOf_packBits bits k⟩⟩

end Sys2Proof.Proofs
end

section
/-! PROOFS. The header checks accept exactly the well-formed headers: each check is one clause of
`HeaderWellFormed`, and the entry loop's two are its clauses about the entries (30_encoding.md R92, R94; 45_decoder.md
R203 to R205). -/

namespace Sys2Proof.Machine

/-! ## The entry loop -/

/-- n entries that can be added to a table: no frequency 0, no symbol twice, and none the table already has. -/
structure EntriesOk (m : Memory) (a n : Nat) (freq : Vector Word 256) : Prop where
  positive : ∀ i < n, entryFreq m a i ≠ 0
  distinct : ∀ i < n, ∀ j < n, entrySym m a i = entrySym m a j → i = j
  fresh : ∀ i < n, tget freq (entrySym m a i) = 0

/-- The table with entry 0 of the stream added. -/
def addEntry (m : Memory) (a : Nat) (freq : Vector Word 256) : Vector Word 256 :=
  tset freq (entrySym m a 0) (BitVec.ofNat 32 (entryFreq m a 0))

theorem entrySym_succ (m : Memory) (a i : Nat) : entrySym m (a + 5) i = entrySym m a (i + 1) := by
  unfold entrySym; congr 1; omega

theorem entryFreq_succ (m : Memory) (a i : Nat) : entryFreq m (a + 5) i = entryFreq m a (i + 1) := by
  unfold entryFreq; congr 1; omega

theorem sum_entryFreq_succ (m : Memory) (a n : Nat) : ((List.range (n + 1)).map (entryFreq m a)).sum =
    entryFreq m a 0 + ((List.range n).map (entryFreq m (a + 5))).sum := by
  simp [List.range_succ_eq_map, Function.comp_def, ← entryFreq_succ]

/-- A frequency fits its table entry, so an entry added with a frequency that is not 0 is not empty. -/
theorem ofNat_entryFreq_eq_zero (m : Memory) (a i : Nat) :
    BitVec.ofNat 32 (entryFreq m a i) = 0 ↔ entryFreq m a i = 0 := by
  have hlt : entryFreq m a i < 2 ^ 32 := m.beRead_lt (a + 13 + 5 * i) 4
  rw [← BitVec.toNat_inj, BitVec.toNat_ofNat, show BitVec.toNat (0 : Word) = 0 from rfl]
  omega

theorem tget_addEntry_eq_zero (m : Memory) (a : Nat) (freq : Vector Word 256) (b : Byte) (h : entryFreq m a 0 ≠ 0) :
    tget (addEntry m a freq) b = 0 ↔ entrySym m a 0 ≠ b ∧ tget freq b = 0 := by
  rw [addEntry, tget_tset]
  split
  · next hb => simpa [hb] using (ofNat_entryFreq_eq_zero m a 0).not.mpr h
  · next hb => simp [hb]

theorem entriesOk_succ (m : Memory) (a n : Nat) (freq : Vector Word 256) :
    EntriesOk m a (n + 1) freq ↔ entryFreq m a 0 ≠ 0 ∧ tget freq (entrySym m a 0) = 0 ∧
      EntriesOk m (a + 5) n (addEntry m a freq) := by
  constructor
  · rintro ⟨hpos, hdist, hfresh⟩
    have hpos0 := hpos 0 n.succ_pos
    refine ⟨hpos0, hfresh 0 n.succ_pos, ?_, ?_, ?_⟩
    · intro i hi
      rw [entryFreq_succ]
      exact hpos (i + 1) (by omega)
    · intro i hi j hj hij
      rw [entrySym_succ, entrySym_succ] at hij
      have := hdist (i + 1) (by omega) (j + 1) (by omega) hij
      omega
    · intro i hi
      rw [tget_addEntry_eq_zero _ _ _ _ hpos0, entrySym_succ]
      exact ⟨fun h => absurd (hdist 0 n.succ_pos (i + 1) (by omega) h) (by omega), hfresh (i + 1) (by omega)⟩
  · rintro ⟨hpos0, hfresh0, hpos, hdist, hfresh⟩
    have hfresh' : ∀ i < n, entrySym m a 0 ≠ entrySym m a (i + 1) ∧ tget freq (entrySym m a (i + 1)) = 0 := by
      intro i hi
      rw [← tget_addEntry_eq_zero _ _ _ _ hpos0, ← entrySym_succ]
      exact hfresh i hi
    simp only [entryFreq_succ, entrySym_succ] at hpos hdist
    refine ⟨?_, ?_, ?_⟩
    · rintro (_ | i) hi
      · exact hpos0
      · exact hpos i (by omega)
    · rintro (_ | i) hi (_ | j) hj hij
      · rfl
      · exact absurd hij (hfresh' j (by omega)).1
      · exact absurd hij.symm (hfresh' i (by omega)).1
      · rw [hdist i (by omega) j (by omega) hij]
    · rintro (_ | i) hi
      · exact hfresh0
      · exact (hfresh' i (by omega)).2

theorem parseEntries_succ (m : Memory) (n a : Nat) (e : Entries) :
    parseEntries m (n + 1) (a + 12) e =
      if entryFreq m a 0 = 0 then .error .corruptZeroFrequency
      else if tget e.freq (entrySym m a 0) ≠ 0 then .error .corruptDuplicateSymbol
      else parseEntries m n (a + 5 + 12) { freq := addEntry m a e.freq, sum := e.sum + entryFreq m a 0 } := by
  have h5 : a + 5 + 12 = a + 12 + 5 := by omega
  rw [h5]
  rfl

/-- The entry loop accepts exactly such entries, and adds up their frequencies. -/
theorem parseEntries_accepts_iff (m : Memory) (n a s : Nat) (e : Entries) :
    (∃ e', parseEntries m n (a + 12) e = .ok e' ∧ e'.sum = s) ↔
      EntriesOk m a n e.freq ∧ e.sum + ((List.range n).map (entryFreq m a)).sum = s := by
  induction n generalizing a e with
  | zero =>
    have hnone : EntriesOk m a 0 e.freq := ⟨by simp, by simp, by simp⟩
    simp [parseEntries, hnone]
  | succ n ih =>
    rw [parseEntries_succ, entriesOk_succ]
    split_ifs with hzero hdup
    · exact iff_of_false (by simp) fun h => h.1.1 hzero
    · exact iff_of_false (by simp) fun h => hdup h.1.2.1
    · rw [ih, sum_entryFreq_succ, Nat.add_assoc]
      exact ⟨fun ⟨h, hs⟩ => ⟨⟨hzero, not_not.mp hdup, h⟩, hs⟩, fun ⟨⟨_, _, h⟩, hs⟩ => ⟨h, hs⟩⟩

/-! ## The checks after the entries -/

/-- A remainder of 2^j is the lowest j bits. -/
theorem mod_two_pow_eq_zero_iff (b : Byte) (j : Nat) : b.toNat % 2 ^ j = 0 ↔ ∀ k < j, b.getLsbD k = false := by
  constructor
  · intro h k hk
    have := Nat.testBit_mod_two_pow b.toNat j k
    rw [h] at this
    simpa [hk, BitVec.getLsbD] using this.symm
  · intro h
    refine Nat.eq_of_testBit_eq fun k => ?_
    rw [Nat.testBit_mod_two_pow, Nat.zero_testBit, ← BitVec.getLsbD]
    by_cases hk : k < j
    · rw [h k hk, Bool.and_false]
    · simp [hk]

/-- R94: the padding bits are those below bit 8 - finalByteBits of the last byte. -/
theorem paddingBad_eq_false_iff (m : Memory) (a len p fbb : Nat) :
    paddingBad m a len p fbb = false ↔ (0 < p → ∀ k < 8 - fbb, (m.read (a + len - 1)).getLsbD k = false) := by
  rw [← mod_two_pow_eq_zero_iff, paddingBad, decide_eq_false_iff_not]
  by_cases hfbb : fbb < 8
  · tauto
  · simp [hfbb, show 8 - fbb = 0 by omega, Nat.mod_one]

theorem parseBody_accepts_iff (m : Memory) (a len n : Nat) :
    (∃ h, parseBody m a len n = .ok h) ↔
      (∃ e, parseEntries m n (a + 12) { freq := tabulate fun _ => 0, sum := 0 } = .ok e ∧
        e.sum = m.beRead (a + 4) 8) ∧
      finalByteBitsLegal (len - headerLen n) (m.read (a + 12 + 5 * n)).toNat = true ∧
      paddingBad m a len (len - headerLen n) (m.read (a + 12 + 5 * n)).toNat = false := by
  unfold parseBody
  cases parseEntries m n (a + 12) { freq := tabulate fun _ => 0, sum := 0 } with
  | error err => simp
  | ok e =>
    simp only
    split_ifs with hsum hfbb hpad
    · simp [hsum]
    · exact iff_of_false (by simp) fun h => by simp [h.2.1] at hfbb
    · simp [hpad]
    · exact iff_of_true ⟨_, rfl⟩ ⟨⟨e, rfl, not_not.mp hsum⟩, by simpa using hfbb, by simpa using hpad⟩

theorem parseHeader_accepts_iff (m : Memory) (a len : Nat) :
    (∃ h, parseHeader m a len = .ok h) ↔
      4 ≤ len ∧ m.beRead a 4 ≤ 256 ∧ headerLen (m.beRead a 4) ≤ len ∧
        ∃ h, parseBody m a len (m.beRead a 4) = .ok h := by
  unfold parseHeader
  simp only
  split_ifs with hshort hcount hlen
  · simp [hshort]
  · simp [hcount]
  · simp [hlen]
  · simp [Nat.not_lt.mp hshort, Nat.not_lt.mp hcount, Nat.not_lt.mp hlen]

theorem parseHeader_accepts_iff_wellFormed (m : Memory) (a len : Nat) :
    (∃ h, parseHeader m a len = .ok h) ↔ HeaderWellFormed m a len := by
  rw [parseHeader_accepts_iff, parseBody_accepts_iff, parseEntries_accepts_iff, paddingBad_eq_false_iff,
    Nat.sub_pos_iff_lt, Nat.zero_add]
  constructor
  · rintro ⟨hfixed, hcount, hfit, ⟨⟨hpos, hdist, -⟩, hsum⟩, hfbb, hpad⟩
    exact ⟨hfixed, hcount, hfit, hpos, hdist, hsum, hfbb, hpad⟩
  · rintro ⟨hfixed, hcount, hfit, hpos, hdist, hsum, hfbb, hpad⟩
    exact ⟨hfixed, hcount, hfit, ⟨⟨hpos, hdist, fun _ _ => tget_tabulate ..⟩, hsum⟩, hfbb, hpad⟩

end Sys2Proof.Machine

namespace Sys2Proof.Proofs
open Sys2Proof.Machine

/-- Settles O42: check by check, for windows of any range. -/
theorem acceptsExactlyWellFormedHeaders : Obligations.AcceptsExactlyWellFormedHeaders :=
  fun m a len _ => parseHeader_accepts_iff_wellFormed m a len

end Sys2Proof.Proofs
end

section
/-! PROOFS. The register bus (40_host_interface.md R110 to R114): a read shows a register or, while BUSY = 1 hides it, a
free draw; a write does to a register what R111 says. -/

namespace Sys2Proof.Machine

/-! ## Reads (R112, R114) -/

theorem State.busRead_of_readable (s : State) (off : Byte) (r : Reg) (hreg : regAt off = some r)
    (hr : r.readableBusy = true) : s.busRead off = s.readReg r := by
  simp [State.busRead, hreg, hr]

theorem State.busRead_of_hidden (s : State) (off : Byte) (r : Reg) (hbusy : s.busy = true)
    (hreg : regAt off = some r) (hr : r.readableBusy = false) :
    s.busRead off = Config.draw 32 s.draws .busRead 0 := by
  simp only [State.busRead, hreg, hbusy, hr, Bool.not_false, Bool.and_self, if_true]

/-- R114: the result and readback registers are those at 0x24 to 0x50 and 0x58 to 0x8C. -/
theorem regAt_hidden (off : Byte) (hword : off.toNat % 4 = 0)
    (hrange : 0x24 ≤ off.toNat ∧ off.toNat ≤ 0x50 ∨ 0x58 ≤ off.toNat ∧ off.toNat ≤ 0x8C) :
    ∃ r, regAt off = some r ∧ r.readableBusy = false := by
  rw [← Option.map_eq_some_iff]
  revert off
  decide

/-! ## Writes (R111) -/

/-- A host write does nothing to the register: it is RO (R111). -/
def Reg.readOnly (r : Reg) : Bool :=
  match r with
  | .cmd | .intEn | .intStatus | .srcAddr | .srcLen | .dstAddr | .dstCap | .tblIndex => false
  | _ => true

theorem State.writeReg_of_readOnly (s : State) (r : Reg) (v : Word) (h : r.readOnly = true) : s.writeReg r v = s := by
  cases r with
  | cmd | intEn | intStatus | srcAddr | srcLen | dstAddr | dstCap | tblIndex => cases h
  | _ => rfl

theorem regAt_readOnly (off : Byte) (h : off ∉ ([0x04, 0x0C, 0x10, 0x14, 0x18, 0x1C, 0x20, 0x54] : List Byte)) :
    ∀ r, regAt off = some r → r.readOnly = true := by
  rw [← Option.all_eq_true]
  revert off
  decide

theorem State.busWrite_of_reg (s : State) (off : Byte) (r : Reg) (v : Word) (hrst : s.rst = false)
    (hreg : regAt off = some r) : s.busWrite off v = s.writeReg r v := by
  simp [State.busWrite, hrst, hreg]

theorem State.busWrite_of_readOnly (s : State) (off : Byte) (v : Word)
    (h : ∀ r, regAt off = some r → r.readOnly = true) : s.busWrite off v = s := by
  unfold State.busWrite
  split
  · rfl
  · split
    · rfl
    · next r hreg => exact s.writeReg_of_readOnly r v (h r hreg)

theorem State.writeReg_cmd_of_idle (s : State) (v : Word) (hidle : s.busy = false) :
    s.writeReg .cmd v = { s.accept v (Config.latency s.draws) with draws := s.draws + 1 } :=
  if_neg (ne_true_of_eq_false hidle)

theorem State.acknowledge_of_set (s : State) (v : Word) (h : v.getLsbD 0 = true) :
    s.acknowledge v = { s with doneIp := false } := if_pos h

theorem State.acknowledge_of_clear (s : State) (v : Word) (h : v.getLsbD 0 = false) : s.acknowledge v = s :=
  if_neg (ne_true_of_eq_false h)

end Sys2Proof.Machine

namespace Sys2Proof.Proofs
open Sys2Proof.Machine

/-- Settles O8: a write to a named offset is a write to its register, the rest name none or a read-only one. -/
theorem registerWrites : Obligations.RegisterWrites := by
  intro s off v hrst
  have write (r : Reg) (hreg : regAt off = some r) := s.busWrite_of_reg off r v hrst hreg
  refine ⟨fun hbusy hoff => ?dropped, fun hidle => ?idle, ?intEn, ?acknowledge, ?noAcknowledge,
    fun hoff => s.busWrite_of_readOnly off v (regAt_readOnly off hoff)⟩
  case dropped =>
    simp only [List.mem_cons, List.not_mem_nil, or_false] at hoff
    obtain rfl | rfl | rfl | rfl | rfl | rfl := hoff
    · exact (write .cmd rfl).trans (if_pos hbusy)
    · exact (write .srcAddr rfl).trans (if_pos hbusy)
    · exact (write .srcLen rfl).trans (if_pos hbusy)
    · exact (write .dstAddr rfl).trans (if_pos hbusy)
    · exact (write .dstCap rfl).trans (if_pos hbusy)
    · exact (write .tblIndex rfl).trans (if_pos hbusy)
  case idle =>
    have hidle' : ¬ s.busy = true := ne_true_of_eq_false hidle
    refine ⟨?cmd, ?srcAddr, ?srcLen, ?dstAddr, ?dstCap, ?tblIndex⟩ <;> rintro rfl
    case cmd => exact ⟨_, _, (write .cmd rfl).trans (s.writeReg_cmd_of_idle v hidle)⟩
    case srcAddr => exact (write .srcAddr rfl).trans (if_neg hidle')
    case srcLen => exact (write .srcLen rfl).trans (if_neg hidle')
    case dstAddr => exact (write .dstAddr rfl).trans (if_neg hidle')
    case dstCap => exact (write .dstCap rfl).trans (if_neg hidle')
    case tblIndex =>
      rw [← BitVec.setWidth_eq_extractLsb' (by decide)]
      exact (write .tblIndex rfl).trans (if_neg hidle')
  case intEn =>
    rintro rfl
    exact write .intEn rfl
  case acknowledge =>
    rintro rfl h
    exact (write .intStatus rfl).trans (s.acknowledge_of_set v h)
  case noAcknowledge =>
    rintro rfl h
    exact (write .intStatus rfl).trans (s.acknowledge_of_clear v h)

/-- Settles O9: the write is an acceptance. -/
theorem commandAccepted : Obligations.CommandAccepted := by
  intro s v hidle hrst
  rw [s.busWrite_of_reg 0x04 .cmd v hrst rfl, s.writeReg_cmd_of_idle v hidle,
    ← BitVec.setWidth_eq_extractLsb' (by decide)]
  rfl

/-- Settles O11: a read's own event is its record; the listed offsets are those of hidden registers. -/
theorem readsChangeNothing : Obligations.ReadsChangeNothing := by
  refine ⟨fun _ _ => rfl, fun s off hbusy hword hrange => ?_⟩
  obtain ⟨r, hreg, hr⟩ := regAt_hidden off hword hrange
  exact s.busRead_of_hidden off r hbusy hreg hr

end Sys2Proof.Proofs
end

section
/-! PROOFS. The completion step of a command: its pseudocode leaves the registers of the host's side as they are
(40_host_interface.md R112), and an error it raises is one of 60_exceptions.md R230, never NONE (R115, R232). -/

namespace Sys2Proof.Machine

/-! ## Errors of a header and of a payload (R230) -/

theorem parseEntries_error (m : Memory) (n a : Nat) (e : Entries) (err : ErrCode)
    (h : parseEntries m n a e = .error err) : err ∈ headerErrs := by
  induction n generalizing a e with
  | zero => cases h
  | succ n ih =>
    simp only [parseEntries] at h
    split_ifs at h
    · cases h; decide
    · cases h; decide
    · exact ih _ _ h

theorem parseBody_error (m : Memory) (a len n : Nat) (err : ErrCode) (h : parseBody m a len n = .error err) :
    err ∈ headerErrs := by
  unfold parseBody at h
  split at h
  · next hentries => cases h; exact parseEntries_error _ _ _ _ _ hentries
  · simp only at h
    split_ifs at h <;> cases h <;> decide

theorem parseHeader_error (m : Memory) (a len : Nat) (err : ErrCode) (h : parseHeader m a len = .error err) :
    err ∈ headerErrs := by
  simp only [parseHeader] at h
  split_ifs at h
  · cases h; decide
  · cases h; decide
  · cases h; decide
  · exact parseBody_error _ _ _ _ _ h

theorem walkSymbol_error (arena : List Node) (seed : Nat) (i : NodeIdx) (bits : List Bool) (err : ErrCode)
    (h : walkSymbol arena seed i bits = .error err) : err ∈ payloadErrs := by
  induction bits generalizing i with
  | nil =>
    unfold walkSymbol at h
    split at h <;> cases h
    decide
  | cons bit bits ih =>
    unfold walkSymbol at h
    split at h
    · cases h
    · next l r _ =>
      simp only at h
      generalize (if bit then r else l) = child at h
      split_ifs at h
      · cases h; decide
      · exact ih _ h

theorem walkSymbols_error (arena : List Node) (seed : Nat) (root : NodeIdx) (n : Nat) (bits : List Bool)
    (err : ErrCode) (h : walkSymbols arena seed root n bits = .error err) : err ∈ payloadErrs := by
  induction n generalizing bits with
  | zero => cases h
  | succ n ih =>
    unfold walkSymbols at h
    split at h
    · next hwalk => cases h; exact walkSymbol_error _ _ _ _ _ hwalk
    · split at h <;> cases h
      next hrec => exact ih _ hrec

theorem State.decodeOutput_error (s : State) (err : ErrCode) (h : s.decodeOutput = .error err) :
    err ∈ payloadErrs := by
  unfold State.decodeOutput at h
  split at h
  · next hwalk => cases h; exact walkSymbols_error _ _ _ _ _ _ hwalk
  · split_ifs at h <;> cases h <;> decide

/-! ## Orderly runs -/

theorem SameHostSide.refl (s : State) : SameHostSide s s := ⟨rfl, rfl, rfl, rfl, rfl, rfl, rfl, rfl, rfl, rfl, rfl⟩

theorem SameHostSide.trans {s t u : State} (h : SameHostSide s t) (h' : SameHostSide t u) : SameHostSide s u := by
  simp_all only [SameHostSide, and_self]

/-- A run from s that keeps the host's side of s, however it ends, and raises nothing but errors. -/
def Run.Orderly (s : State) (r : Run) : Prop :=
  match r with
  | .ok t => SameHostSide s t
  | .raise e t => SameHostSide s t ∧ e ≠ .none

theorem Run.Orderly.andThen {s : State} {r : Run} {k : State → Run} (hr : r.Orderly s)
    (hk : ∀ t, (k t).Orderly t) : (r.andThen k).Orderly s := by
  cases r with
  | raise e t => exact hr
  | ok t =>
    have hkt := hk t
    rw [Run.andThen_ok]
    cases hrun : k t with
    | ok u => rw [hrun] at hkt; exact SameHostSide.trans hr hkt
    | raise e u => rw [hrun] at hkt; exact ⟨SameHostSide.trans hr hkt.1, hkt.2⟩

theorem Run.Orderly.zeroLength {s : State} {r : Run} (hr : r.Orderly s) : r.zeroLength.Orderly s := by
  cases r <;> exact hr

theorem Run.Orderly.complete_sameHostSide {s : State} {r : Run} (hr : r.Orderly s) : SameHostSide s r.complete := by
  cases r with
  | ok t => exact hr
  | raise e t => exact hr.1

/-- R232: ERR = 1 exactly where ERR_CODE names an error. -/
theorem Run.Orderly.complete_err {s : State} {r : Run} (hr : r.Orderly s) :
    r.complete.err = true ↔ r.complete.errCode ≠ .none := by
  cases r with
  | ok t => simp
  | raise e t => simp [hr.2]

section Commands
variable (s : State)

theorem runCount_orderly : (runCount s).Orderly s := by
  obtain ⟨-, h⟩ | ⟨-, h⟩ := runCount_cases s <;> rw [h]
  · simp [Run.Orderly, SameHostSide]
  · exact ⟨.refl s, by decide⟩

theorem runBuildTree_orderly : (runBuildTree s).Orderly s := by
  obtain ⟨-, h⟩ | ⟨-, -, h⟩ | ⟨-, -, h⟩ := runBuildTree_cases s <;> rw [h]
  · exact ⟨.refl s, by decide⟩
  · exact ⟨.refl s, by decide⟩
  · exact .refl s

theorem runAssignCodes_orderly : (runAssignCodes s).Orderly s := by
  obtain ⟨-, h⟩ | ⟨-, h⟩ := runAssignCodes_cases s <;> rw [h]
  · exact ⟨.refl s, by decide⟩
  · exact .refl s

theorem runEmitStream_orderly : (runEmitStream s).Orderly s := by
  obtain ⟨e, he, h⟩ | h | ⟨-, -, -, -, -, -, h⟩ := runEmitStream_cases s <;> rw [h]
  · exact ⟨.refl s, ne_of_mem_of_not_mem he (by decide)⟩
  · exact ⟨.refl s, by decide⟩
  · exact .refl s

theorem runParseHeader_orderly : (runParseHeader s).Orderly s := by
  obtain ⟨-, h⟩ | ⟨-, e, he, h⟩ | ⟨-, hd, -, h⟩ := runParseHeader_cases s <;> rw [h]
  · exact ⟨.refl s, by decide⟩
  · exact ⟨.refl s, ne_of_mem_of_not_mem (parseHeader_error _ _ _ e he) (by decide)⟩
  · exact .refl s

theorem runDecodePayload_orderly : (runDecodePayload s).Orderly s := by
  obtain ⟨e, he, h⟩ | ⟨e, he, h⟩ | ⟨out, -, -, -, -, -, -, -, h⟩ := runDecodePayload_cases s <;> rw [h]
  · exact ⟨.refl s, ne_of_mem_of_not_mem he (by decide)⟩
  · exact ⟨.refl s, ne_of_mem_of_not_mem (s.decodeOutput_error e he) (by decide)⟩
  · exact .refl s

theorem runBuildAndAssign_orderly : (runBuildAndAssign s).Orderly s := by
  unfold runBuildAndAssign
  split
  · exact .refl s
  · exact (runBuildTree_orderly s).andThen runAssignCodes_orderly

theorem runBuildIfAny_orderly : (runBuildIfAny s).Orderly s := by
  unfold runBuildIfAny
  split
  · exact .refl s
  · exact runBuildTree_orderly s

theorem runOf_orderly (i : Instr) : (runOf i s).Orderly s := by
  cases i with
  | clear => exact SameHostSide.refl s
  | count => exact runCount_orderly s
  | buildTree => exact runBuildTree_orderly s
  | assignCodes => exact runAssignCodes_orderly s
  | emitStream => exact runEmitStream_orderly s
  | parseHeader => exact runParseHeader_orderly s
  | decodePayload => exact runDecodePayload_orderly s
  | encode =>
    exact (((runCount_orderly s).andThen runBuildAndAssign_orderly).andThen runEmitStream_orderly).zeroLength
  | decode =>
    exact (((runParseHeader_orderly s).andThen runBuildIfAny_orderly).andThen runDecodePayload_orderly).zeroLength

end Commands

/-! ## Completion steps -/

theorem exec_unraced (i : Instr) (s : State) (hraced : s.raced = false) :
    exec i s = .next (runOf i s).complete := by
  rw [exec_eq_finish, finish_unraced _ _ _ hraced]

theorem raceComplete_sameHostSide (fp : Footprint) (s : State) : SameHostSide s (raceComplete fp s) := .refl s

theorem exec_sameHostSide (i : Instr) (s t : State) (h : exec i s = .next t) : SameHostSide s t := by
  cases hraced : s.raced with
  | false =>
    cases (exec_unraced i s hraced).symm.trans h
    exact (runOf_orderly s i).complete_sameHostSide
  | true =>
    cases (exec_raced i s hraced).symm.trans h
    exact raceComplete_sameHostSide _ s

end Sys2Proof.Machine

namespace Sys2Proof.Proofs
open Sys2Proof.Machine

/-- Settles O4: a due completion step is the latched word's, and the word decodes to i. -/
theorem stepRunsDecodedCommand : Obligations.StepRunsDecodedCommand := by
  intro s f i hf hw hdecode _
  rw [step_of_due s f hf hw, runWord_ok f.word s i hdecode]

/-- Settles O10: the ten registers are readable while BUSY = 1, and no completion step changes the host's side. -/
theorem hostRegistersWhileBusy : Obligations.HostRegistersWhileBusy := by
  refine ⟨fun s => ?reads, exec_sameHostSide⟩
  have read (off : Byte) (r : Reg) (hreg : regAt off = some r) (hr : r.readableBusy = true) :=
    s.busRead_of_readable off r hreg hr
  exact ⟨read 0x00 .id rfl rfl, read 0x04 .cmd rfl rfl, read 0x08 .status rfl rfl, read 0x0C .intEn rfl rfl,
    read 0x10 .intStatus rfl rfl, read 0x14 .srcAddr rfl rfl, read 0x18 .srcLen rfl rfl,
    read 0x1C .dstAddr rfl rfl, read 0x20 .dstCap rfl rfl, read 0x54 .tblIndex rfl rfl⟩

/-- Settles O20: an unraced command completes its own run, and the run raises nothing but errors. -/
theorem completionStepWrites : Obligations.CompletionStepWrites := by
  intro i s t hraced h
  cases (exec_unraced i s hraced).symm.trans h
  obtain ⟨hidle, hdone, hip⟩ := (runOf i s).complete_status
  exact ⟨by rw [State.busy_eq, hidle]; rfl, hdone, hip, (runOf_orderly s i).complete_err⟩

end Sys2Proof.Proofs
end

section
/-! PROOFS. CLEAR and COUNT (41_symbol_table.md R130 to R134): an unraced completion step leaves empty tables, or the
histogram of the source window, and its counts are exact because the window is shorter than 2^32 bytes. -/

namespace Sys2Proof.Machine

theorem State.length_srcBytes (s : State) : s.srcBytes.length = s.srcLen.toNat := Memory.length_bytes _ _ _

theorem Memory.count_bytes (m : Memory) (a n : Nat) (b : Byte) :
    (m.bytes a n).count b = (List.range n).countP fun i => m.read (a + i) == b := by
  rw [Memory.bytes, List.count, List.countP_map]
  rfl

/-- R132: an unraced COUNT of an in-range window loads the window's histogram. -/
theorem exec_count_of_inRange (s : State) (hraced : s.raced = false) (hrange : s.srcWindow.inRange = true) :
    exec .count s = .next (s.loadTable (histogram s.srcBytes) s.srcLen.toNat).flagsTable.completeOk := by
  have hrun : runCount s = .ok (s.loadTable (histogram s.srcBytes) s.srcLen.toNat).flagsTable := if_pos hrange
  rw [exec_unraced .count s hraced, runOf, hrun, Run.complete_ok]

/-- R133: SRC_LEN bounds every count, so the histogram of the source window is exact. -/
theorem State.toNat_tget_histogram_srcBytes (s : State) (b : Byte) :
    (tget (histogram s.srcBytes) b).toNat = s.srcBytes.count b :=
  toNat_tget_histogram _ (s.length_srcBytes ▸ s.srcLen.isLt) b

end Sys2Proof.Machine

namespace Sys2Proof.Proofs
open Sys2Proof.Machine

/-- Settles O27: the histogram counts the bytes of the source window, and NSYM is the number of present symbols. -/
theorem countCompletes : Obligations.CountCompletes := by
  intro s hraced hrange
  refine ⟨_, exec_count_of_inRange s hraced ((Window.inRange_iff _).mpr hrange), fun b => ?counts, ?nsym, ?frame⟩
  case counts => exact (s.toNat_tget_histogram_srcBytes b).trans (Memory.count_bytes _ _ _ b)
  case nsym =>
    refine (toNat_ofNat_length_present _).trans ?_
    rw [present_eq_filter]
    rfl
  case frame => rw [← BitVec.ofNat_toNat 64 s.srcLen]; rfl

/-- Settles O28: the counts of a buffer add up to its length, which is SRC_LEN, and none exceeds it. -/
theorem countsSumToLength : Obligations.CountsSumToLength := by
  intro s t hraced hrange h
  cases (exec_count_of_inRange s hraced hrange).symm.trans h
  have hcount (b : Byte) := s.toNat_tget_histogram_srcBytes b
  simp only [State.completeOk_freq, State.flagsTable_freq, State.loadTable_freq, hcount]
  refine ⟨?sum, ?length, fun b => ?bound⟩
  case sum => rw [sum_count_allSyms, s.length_srcBytes]
  case length =>
    rw [State.completeOk_origLen, State.flagsTable_origLen, State.loadTable_origLen, BitVec.ofNat_toNat,
      BitVec.toNat_setWidth_of_le (by decide)]
  case bound => exact s.length_srcBytes ▸ List.count_le_length

/-- Settles O26: CLEAR's run never raises, and each entry of its three tables is 0. -/
theorem clearEmptiesTables : Obligations.ClearEmptiesTables := by
  intro s hraced
  refine ⟨_, exec_unraced .clear s hraced, fun b => ⟨?freq, ?codeLen, ?codeBits⟩, ?frame⟩
  case frame => rfl
  all_goals exact tget_tabulate _ b

end Sys2Proof.Proofs
end

section
/-! PROOFS. BUILD_TREE merges the two smallest keys (42_tree_builder.md R151, R153, R157). The queue is kept sorted by
key, strictly, since its trees share no symbol and so no two keys are equal; the two entries at its head are then the
two smallest whatever order a collection holds them in. The arena's numbering (R158) and its dependence on FREQ alone
(R159) follow. -/

namespace Sys2Proof.Machine

/-! ## Keys (R151) -/

theorem Node.keyLt_iff (m n : Node) :
    m.keyLt n = true ↔ m.weight < n.weight ∨ (m.weight = n.weight ∧ m.minSym < n.minSym) := decide_eq_true_iff

theorem Node.keyLt_trans {l m n : Node} (hlm : l.keyLt m = true) (hmn : m.keyLt n = true) : l.keyLt n = true := by
  simp only [Node.keyLt_iff, BitVec.lt_def, ← BitVec.toNat_inj] at *
  omega

/-- Nodes with different smallest symbols have different keys. -/
theorem Node.keyLt_of_not_keyLt {m n : Node} (hne : m.minSym ≠ n.minSym) (h : ¬ m.keyLt n = true) :
    n.keyLt m = true := by
  simp only [Node.keyLt_iff, BitVec.lt_def, ← BitVec.toNat_inj, ne_eq] at *
  omega

theorem Node.minSym_mem {n : Node} (h : n.content ≠ []) : n.minSym ∈ n.content := by
  obtain ⟨b, bs, hb⟩ := List.exists_cons_of_ne_nil h
  simp [Node.minSym, hb]

theorem QEntry.Apart.minSym_ne {a b : QEntry} (h : a.Apart b) (ha : a.node.content ≠ [])
    (hb : b.node.content ≠ []) : a.node.minSym ≠ b.node.minSym :=
  fun heq => h _ (Node.minSym_mem ha) (heq ▸ Node.minSym_mem hb)

/-! ## The sorted queue (R152) -/

/-- Entry a is extracted before entry b. -/
def QEntry.Before (a b : QEntry) : Prop := a.node.keyLt b.node = true

/-- Inserting an entry whose key is new keeps the queue sorted. -/
theorem insertKey_sorted {e : QEntry} {q : List QEntry} (hq : q.Pairwise QEntry.Before)
    (hnew : ∀ x ∈ q, e.node.minSym ≠ x.node.minSym) : (insertKey e q).Pairwise QEntry.Before := by
  induction q with
  | nil => exact List.pairwise_singleton _ e
  | cons x xs ih =>
    obtain ⟨hx, hxs⟩ := List.pairwise_cons.mp hq
    unfold insertKey
    split
    · next hlt =>
      refine List.pairwise_cons.mpr ⟨fun y hy => ?_, hq⟩
      obtain rfl | hy := List.mem_cons.mp hy
      · exact hlt
      · exact Node.keyLt_trans hlt (hx y hy)
    · next hnlt =>
      refine List.pairwise_cons.mpr ⟨fun y hy => ?_, ih hxs fun y hy => hnew y (by simp [hy])⟩
      obtain rfl | hy := List.mem_cons.mp ((insertKey_perm e xs).mem_iff.mp hy)
      · exact Node.keyLt_of_not_keyLt (hnew x (by simp)) hnlt
      · exact hx y hy

theorem node_mem_of_mem_queueOf {k : Nat} {ns : List Node} {x : QEntry} (hx : x ∈ queueOf k ns) : x.node ∈ ns :=
  map_node_numbered k ns ▸ List.mem_map_of_mem ((queueOf_perm k ns).mem_iff.mp hx)

theorem queueOf_sorted (k : Nat) (ns : List Node) (h : ns.Pairwise fun m n => m.minSym ≠ n.minSym) :
    (queueOf k ns).Pairwise QEntry.Before := by
  induction ns generalizing k with
  | nil => exact List.Pairwise.nil
  | cons n ns ih =>
    obtain ⟨hn, hns⟩ := List.pairwise_cons.mp h
    exact insertKey_sorted (ih (k + 1) hns) fun x hx => hn _ (node_mem_of_mem_queueOf hx)

theorem pairwise_minSym_leavesOf (freq : Vector Word 256) :
    (leavesOf freq).Pairwise fun m n => m.minSym ≠ n.minSym :=
  List.pairwise_map.mpr ((pairwise_present freq).imp BitVec.ne_of_lt)

/-- A forest whose queue is sorted; a content that is not empty has the smallest symbol its key names. -/
structure SortedForest (freq : Vector Word 256) (arena : List Node) (q : List QEntry) : Prop
    extends Forest freq arena q where
  sorted : q.Pairwise QEntry.Before
  inhabited : ∀ e ∈ q, e.node.content ≠ []

theorem sortedForest_leavesOf (freq : Vector Word 256) :
    SortedForest freq (leavesOf freq) (queueOf 0 (leavesOf freq)) where
  toForest := (forest_leavesOf freq).perm (queueOf_perm 0 _).symm
  sorted := queueOf_sorted 0 _ (pairwise_minSym_leavesOf freq)
  inhabited e he := by
    obtain ⟨b, -, hb⟩ := List.mem_map.mp (node_mem_of_mem_queueOf he)
    rw [← hb]
    exact List.cons_ne_nil b []

section Merge
variable {freq : Vector Word 256} {arena : List Node} {a b : QEntry} {rest : List QEntry}

theorem SortedForest.merged_inhabited (h : SortedForest freq arena (a :: b :: rest)) :
    ∀ e ∈ mergedEntry arena a b :: rest, e.node.content ≠ [] := by
  intro e he
  obtain rfl | he := List.mem_cons.mp he
  · exact List.ne_nil_of_mem ((mem_content_forkOf _).mpr (.inl (Node.minSym_mem (h.inhabited a (by simp)))))
  · exact h.inhabited e (by simp [he])

/-- A merge of the queue's first two entries keeps it sorted. -/
theorem SortedForest.merge (h : SortedForest freq arena (a :: b :: rest)) :
    SortedForest freq (arena ++ [forkOf a b]) (insertKey (mergedEntry arena a b) rest) where
  toForest := h.toForest.merge.perm (insertKey_perm _ _).symm
  sorted := by
    have hinh := h.merged_inhabited
    refine insertKey_sorted h.sorted.tail.tail fun x hx => ?_
    exact ((List.pairwise_cons.mp h.merged_apart).1 x hx).minSym_ne (hinh _ (by simp)) (hinh x (by simp [hx]))
  inhabited e he := h.merged_inhabited e ((insertKey_perm _ _).mem_iff.mp he)

/-- The head of a sorted queue and the entry after it are the two smallest, as `Merges` asks for. -/
theorem SortedForest.second_smallest (h : SortedForest freq arena (a :: b :: rest)) :
    ∀ c ∈ rest.map QEntry.idx, ∀ nc, nodeIs arena c nc → b.node.keyLt nc = true := by
  intro c hc nc hnc
  obtain ⟨e, he, rfl⟩ := List.mem_map.mp hc
  cases (h.held e (by simp [he])).symm.trans hnc
  exact (List.pairwise_cons.mp h.sorted.tail).1 e he

end Merge

/-- One entry left is the root. -/
theorem merges_of_singleton {arena arena' : List Node} {q : List QEntry} {idxs : List Nat} {e : QEntry}
    (hidxs : idxs.Perm (q.map QEntry.idx)) (hone : (arena, q) = (arena', [e])) : Merges arena idxs arena' e.idx := by
  cases hone
  rw [List.perm_singleton.mp hidxs]
  exact .done arena e.idx

/-- The loop on a sorted queue merges the two smallest keys of the collection of its indices, in any order. -/
theorem mergeLoop_merges {freq : Vector Word 256} {arena' : List Node} {e : QEntry} (fuel : Nat) (arena : List Node)
    (q : List QEntry) (idxs : List Nat) (h : SortedForest freq arena q) (hidxs : idxs.Perm (q.map QEntry.idx))
    (hloop : mergeLoop fuel arena q = (arena', [e])) : Merges arena idxs arena' e.idx := by
  induction fuel generalizing arena q idxs with
  | zero => exact merges_of_singleton hidxs hloop
  | succ fuel ih =>
    match q with
    | [] | [_] => exact merges_of_singleton hidxs hloop
    | a :: b :: rest =>
      have hperm := (insertKey_perm (mergedEntry arena a b) rest).map QEntry.idx
      exact .merge arena idxs (rest.map QEntry.idx) a.idx b.idx a.node b.node arena' e.idx hidxs
        (h.held a (by simp)) (h.held b (by simp)) ((List.pairwise_cons.mp h.sorted).1 b (by simp))
        h.second_smallest (ih _ _ _ h.merge hperm.symm hloop)

/-! ## The numbering of a merge (R158) -/

def Node.IsFork (n : Node) : Prop := ∃ w c l r, n = .fork w c l r

/-- Merging adds one fork for each index but the last one left, at the arena's end, and the last fork is the root. -/
theorem Merges.numbering {arena arena' : List Node} {q : List Nat} {r : Nat} (h : Merges arena q arena' r) :
    ∃ forks, arena' = arena ++ forks ∧ (∀ n ∈ forks, n.IsFork) ∧ forks.length + 1 = q.length ∧
      (q = [r] ∨ r + 1 = arena'.length) := by
  induction h with
  | done arena r => exact ⟨[], by simp, by simp, rfl, .inl rfl⟩
  | merge arena q rest a b na nb arena' r members _ _ _ _ _ ih =>
    obtain ⟨forks, rfl, hforks, hlen, hroot⟩ := ih
    refine ⟨_ :: forks, List.append_assoc .., List.forall_mem_cons.mpr ⟨⟨_, _, _, _, rfl⟩, hforks⟩, ?_, .inr ?_⟩
    · rw [members.length_eq, List.length_cons, hlen]
      rfl
    · obtain hlast | hroot := hroot
      · cases hlast
        obtain rfl : forks = [] := List.eq_nil_of_length_eq_zero (Nat.succ.inj hlen)
        simp
      · exact hroot

/-! ## What BUILD_TREE leaves -/

theorem Counts.length_leavesOf {freq : Vector Word 256} {nsym : BitVec 9} (h : Counts freq nsym) :
    (leavesOf freq).length = nsym.toNat := by
  rw [leavesOf, List.length_map, ← h]

/-- R155: a table with one symbol gives its leaf and the one-child root. -/
theorem buildArena_one {freq : Vector Word 256} {nsym : BitVec 9} (hcounts : Counts freq nsym) (hone : nsym = 1) :
    ∃ b, present freq = [b] ∧
      ∀ seed, buildArena freq nsym seed = (oneSymbolArena b ((tget freq b).setWidth 64), 1) := by
  subst hone
  obtain ⟨b, hb⟩ := List.length_eq_one_iff.mp hcounts.symm
  exact ⟨b, hb, fun seed => by
    simp [buildArena, leavesOf, hb, Node.weight, Node.minSym, Node.content, oneSymbolArena]⟩

/-- The loop of a table with two symbols or more ends with one entry, which leaves nothing to a free value. -/
theorem buildArena_merges {freq : Vector Word 256} {nsym : BitVec 9} (hcounts : Counts freq nsym) (hnsym : nsym ≠ 0)
    (hmany : nsym ≠ 1) : ∃ arena root, (∀ seed, buildArena freq nsym seed = (arena, root)) ∧
      Merges (leavesOf freq) (List.range nsym.toNat) arena root.toNat := by
  have hsorted := sortedForest_leavesOf freq
  have hperm := (queueOf_perm 0 (leavesOf freq)).map QEntry.idx
  rw [map_idx_numbered, hcounts.length_leavesOf] at hperm
  have hlen : (queueOf 0 (leavesOf freq)).length = nsym.toNat := by simpa using hperm.length_eq
  have hne : queueOf 0 (leavesOf freq) ≠ [] := fun hnil =>
    hnsym (BitVec.eq_of_toNat_eq (hlen.symm.trans (congrArg List.length hnil)))
  obtain ⟨arena, e, hloop, hforest⟩ := mergeLoop_forest (leavesOf freq).length (leavesOf freq) _
    hsorted.toForest hne (by rw [hlen, hcounts.length_leavesOf]; exact Nat.le_succ _)
  refine ⟨arena, BitVec.ofNat 9 e.idx, fun seed => by simp only [buildArena, if_neg hmany, hloop], ?_⟩
  have hidx := hforest.idx_lt (List.mem_singleton.mpr rfl)
  have hsize := hforest.size
  rw [List.length_singleton] at hsize
  rw [BitVec.toNat_ofNat, Nat.mod_eq_of_lt (by omega)]
  exact mergeLoop_merges _ _ _ _ hsorted hperm.symm hloop

/-- R158: the leaves come first, then forks only. -/
theorem buildArena_eq_leavesOf_append {freq : Vector Word 256} {nsym : BitVec 9} (hcounts : Counts freq nsym)
    (hnsym : nsym ≠ 0) (seed : Nat) :
    ∃ forks, (buildArena freq nsym seed).1 = leavesOf freq ++ forks ∧ ∀ n ∈ forks, n.IsFork := by
  by_cases hone : nsym = 1
  · obtain ⟨b, hb, hbuilt⟩ := buildArena_one hcounts hone
    rw [hbuilt, leavesOf, hb]
    exact ⟨[_], rfl, List.forall_mem_singleton.mpr ⟨_, _, _, _, rfl⟩⟩
  · obtain ⟨arena, root, hbuilt, hmerges⟩ := buildArena_merges hcounts hnsym hone
    obtain ⟨forks, happend, hforks, -, -⟩ := hmerges.numbering
    exact ⟨forks, (congrArg Prod.fst (hbuilt seed)).trans happend, hforks⟩

/-- R159: where NSYM counts FREQ's symbols no free value enters the tree. -/
theorem buildArena_seed_irrelevant {freq : Vector Word 256} {nsym : BitVec 9} (hcounts : Counts freq nsym)
    (hnsym : nsym ≠ 0) (seed seed' : Nat) : buildArena freq nsym seed = buildArena freq nsym seed' := by
  by_cases hone : nsym = 1
  · obtain ⟨b, -, hbuilt⟩ := buildArena_one hcounts hone
    rw [hbuilt, hbuilt]
  · obtain ⟨arena, root, hbuilt, -⟩ := buildArena_merges hcounts hnsym hone
    rw [hbuilt, hbuilt]

/-- An unraced BUILD_TREE of a valid table that is not empty completes with `treeBuilt`. -/
theorem exec_buildTree_of_table {s : State} (hraced : s.raced = false) (htable : s.tableValid = true)
    (hnsym : s.nsym ≠ 0) : exec .buildTree s = .next s.treeBuilt.completeOk := by
  obtain ⟨hno, -⟩ | ⟨-, hno, -⟩ | ⟨-, -, hrun⟩ := runBuildTree_cases s
  · exact absurd htable (by simp [hno])
  · exact absurd hno hnsym
  · rw [exec_unraced .buildTree s hraced, runOf, hrun, Run.complete_ok]

theorem built_of_exec_buildTree {s t : State} (hraced : s.raced = false) (htable : s.tableValid = true)
    (hnsym : s.nsym ≠ 0) (h : exec .buildTree s = .next t) :
    (t.arena, t.root) = buildArena s.freq s.nsym s.draws := by
  cases (exec_buildTree_of_table hraced htable hnsym).symm.trans h
  rfl

end Sys2Proof.Machine

namespace Sys2Proof.Proofs
open Sys2Proof.Machine

/-- Settles O31: the frame is `treeBuilt`'s, and the sorted queue's merges are merges of the two smallest keys. -/
theorem buildTreeCompletes : Obligations.BuildTreeCompletes := by
  intro s hraced htable hnsym
  refine ⟨_, exec_buildTree_of_table hraced htable hnsym, rfl, fun hcounts hone => ?one, fun hcounts hmany => ?many⟩
  case one =>
    obtain ⟨b, hb, hbuilt⟩ := buildArena_one hcounts hone
    exact ⟨b, hb, congrArg Prod.snd (hbuilt s.draws), congrArg Prod.fst (hbuilt s.draws)⟩
  case many =>
    obtain ⟨arena, root, hbuilt, hmerges⟩ := buildArena_merges hcounts hnsym hmany
    rw [State.completeOk_arena, State.completeOk_root, State.treeBuilt_arena, State.treeBuilt_root, hbuilt]
    exact hmerges

/-- Settles O33: forks follow the leaves, and each merge adds one fork, the last of them the root. -/
theorem builtTreeNumbering : Obligations.BuiltTreeNumbering := by
  intro s t hraced htable hnsym hcounts h
  have hbuilt := built_of_exec_buildTree hraced htable hnsym h
  obtain ⟨forks, hlayout, hforks⟩ := buildArena_eq_leavesOf_append hcounts hnsym s.draws
  have harena : t.arena = leavesOf s.freq ++ forks := (congrArg Prod.fst hbuilt).trans hlayout
  have hleaves := hcounts.length_leavesOf
  refine ⟨fun i hi => ?leaves, fun i hle hlt => ?forks, fun hone => ?one, fun hmany => ?many⟩
  case leaves =>
    have hpresent : i < (present s.freq).length := hcounts ▸ hi
    refine ⟨_, List.getElem?_eq_getElem hpresent, ?_⟩
    rw [harena, List.getElem?_append_left (hleaves ▸ hi), leavesOf, List.getElem?_map,
      List.getElem?_eq_getElem hpresent]
    rfl
  case forks =>
    have hmem : t.arena[i] ∈ forks := by
      simp only [harena, List.getElem_append_right (hleaves ▸ hle), List.getElem_mem]
    obtain ⟨w, c, l, r, hfork⟩ := hforks _ hmem
    exact ⟨w, c, l, r, hfork ▸ List.getElem?_eq_getElem hlt⟩
  case one =>
    obtain ⟨b, -, hpair⟩ := buildArena_one hcounts hone
    obtain ⟨harena, hroot⟩ := Prod.mk.inj (hbuilt.trans (hpair s.draws))
    exact ⟨congrArg List.length harena, hroot⟩
  case many =>
    obtain ⟨arena, root, hmerged, hmerges⟩ := buildArena_merges hcounts hnsym hmany
    obtain ⟨rfl, rfl⟩ := Prod.mk.inj (hbuilt.trans (hmerged s.draws))
    obtain ⟨merged, hsplit, -, hlen, hroot⟩ := hmerges.numbering
    have hcount : t.arena.length = s.nsym.toNat + merged.length := by rw [hsplit, List.length_append, hleaves]
    have hone : s.nsym.toNat ≠ 1 := fun h => hmany (BitVec.eq_of_toNat_eq h)
    rw [List.length_range] at hlen
    obtain hlast | hroot := hroot
    · exact absurd (List.length_range.symm.trans (congrArg List.length hlast)) hone
    · omega

/-- Settles O34: equal FREQ gives equal NSYM, and the draws do not enter `buildArena`. -/
theorem treeDependsOnlyOnTable : Obligations.TreeDependsOnlyOnTable := by
  intro s s' t t' hraced hraced' htable htable' hnsym hcounts hcounts' hfreq h h'
  have hsame : s.nsym = s'.nsym := by
    rw [← hfreq] at hcounts'
    exact BitVec.eq_of_toNat_eq (hcounts.trans hcounts'.symm)
  have hbuilt := built_of_exec_buildTree hraced htable hnsym h
  have hbuilt' := built_of_exec_buildTree hraced' htable' (hsame ▸ hnsym) h'
  rw [← hfreq, ← hsame, buildArena_seed_irrelevant hcounts hnsym s'.draws s.draws, ← hbuilt] at hbuilt'
  obtain ⟨harena, hroot⟩ := Prod.mk.inj hbuilt'
  exact ⟨harena.symm, hroot.symm⟩

end Sys2Proof.Proofs
end

section
/-! PROOFS. TOTAL_BITS counts the code bits of a buffer: each byte adds its code's length, so the sum over the bytes is
the sum over the symbols of count times length (43_code_assigner.md R173, 44_encoder.md R184). -/

namespace Sys2Proof.Machine

theorem length_codeBitList (l : Byte) (c : CodeWord) : (codeBitList l c).length = l.toNat := by simp [codeBitList]

theorem length_encodeBits (l : Vector Byte 256) (c : Vector CodeWord 256) (bs : List Byte) :
    (encodeBits l c bs).length = (bs.map fun b => (tget l b).toNat).sum := by
  simp only [encodeBits, List.length_flatMap, length_codeBitList]

theorem sum_map_eq_sum_count (f : Byte → Nat) (bs : List Byte) :
    (bs.map f).sum = (allSyms.map fun b => bs.count b * f b).sum := by
  rw [sum_map_allSyms, Finset.sum_list_map_count]
  refine Finset.sum_subset (Finset.subset_univ _) fun b _ hb => ?_
  rw [List.count_eq_zero_of_not_mem fun h => hb (List.mem_toFinset.mpr h), zero_smul]

end Sys2Proof.Machine

namespace Sys2Proof.Proofs
open Sys2Proof.Machine

/-- Settles O37: below 2^32 bytes the histogram's counts are exact, and the sum over the bytes is one over the
symbols. -/
theorem payloadLengthIsTotalBits : Obligations.PayloadLengthIsTotalBits := by
  intro bs l c hlen
  refine ⟨?_, codedBits_lt _ _⟩
  rw [length_encodeBits, sum_map_eq_sum_count, codedBits_eq_sum]
  simp only [toNat_tget_histogram bs hlen]

end Sys2Proof.Proofs
end

section
/-! PROOFS. ASSIGN_CODES gives each present symbol the path from ROOT to its leaf (43_code_assigner.md R171, R172): one
induction over the tree follows the assigner's walk and the decoder's walk together. -/

namespace Sys2Proof.Machine

/-! ## A path as a code (R42) -/

/-- The value of v followed by the bits of p, the first bit the most significant. -/
def pathValue (v : Nat) (p : List Bool) : Nat := p.foldl (fun v bit => Nat.bit bit v) v

theorem pathValue_append_one (v : Nat) (p : List Bool) (bit : Bool) :
    pathValue v (p ++ [bit]) = Nat.bit bit (pathValue v p) := List.foldl_append ..

theorem pathValue_lt (p : List Bool) : pathValue 0 p < 2 ^ p.length := by
  induction p using List.reverseRecOn with
  | nil => exact Nat.one_pos
  | append_singleton p bit ih =>
    rw [pathValue_append_one, List.length_append]
    exact Nat.bit_lt_two_pow_succ_iff.mpr ih

theorem map_testBit_pathValue (v : Nat) (p : List Bool) :
    (List.range p.length).map (fun j => (pathValue v p).testBit (p.length - 1 - j)) = p := by
  induction p using List.reverseRecOn with
  | nil => rfl
  | append_singleton p bit ih =>
    rw [pathValue_append_one, List.length_append, List.length_singleton, List.range_succ, List.map_append,
      Nat.add_sub_cancel]
    congr 1
    · conv_rhs => rw [← ih]
      refine List.map_congr_left fun j hj => ?_
      have := List.mem_range.mp hj
      rw [show p.length - j = (p.length - 1 - j).succ by omega, Nat.testBit_bit_succ]
    · rw [List.map_singleton, Nat.sub_self, Nat.testBit_bit_zero]

/-- CODE_LEN[b] and CODE_BITS[b]. -/
def CodeTable.entry (t : CodeTable) (b : Byte) : Byte × CodeWord := (tget t.len b, tget t.bits b)

theorem CodeTable.entry_record (t : CodeTable) (b c : Byte) (d v : Nat) :
    (t.record b d v).entry c = if b = c then (BitVec.ofNat 8 d, BitVec.ofNat 256 v) else t.entry c := by
  simp only [entry, record, tget_tset]
  split <;> rfl

theorem CodeTable.entry_emptyCodes (b : Byte) : emptyCodes.entry b = (0, 0) := by
  simp only [entry, emptyCodes, tget_tabulate]

/-- The entry of a symbol that the assigner reaches by path p from a node at depth d with value v. -/
def pathEntry (v d : Nat) (p : List Bool) : Byte × CodeWord :=
  (BitVec.ofNat 8 (d + p.length), BitVec.ofNat 256 (pathValue v p))

theorem pathEntry_cons (v d : Nat) (bit : Bool) (p : List Bool) :
    pathEntry v d (bit :: p) = pathEntry (Nat.bit bit v) (d + 1) p := by
  rw [pathEntry, pathEntry, List.length_cons, Nat.add_right_comm]
  rfl

section PathEntry
variable {t : CodeTable} {b : Byte} {p : List Bool} (hp : p.length ≤ 255) (h : t.entry b = pathEntry 0 0 p)
include hp h

theorem CodeTable.toNat_len_of_pathEntry : (tget t.len b).toNat = p.length := by
  have hlen : tget t.len b = BitVec.ofNat 8 (0 + p.length) := congrArg Prod.fst h
  rw [hlen, BitVec.toNat_ofNat, Nat.zero_add, Nat.mod_eq_of_lt (Nat.lt_succ_of_le hp)]

theorem CodeTable.toNat_bits_of_pathEntry : (tget t.bits b).toNat = pathValue 0 p := by
  have hbits : tget t.bits b = BitVec.ofNat 256 (pathValue 0 p) := congrArg Prod.snd h
  rw [hbits, BitVec.toNat_ofNat, Nat.mod_eq_of_lt]
  exact (pathValue_lt p).trans_le (Nat.pow_le_pow_right Nat.two_pos (hp.trans (Nat.le_succ _)))

/-- The code of a symbol is its path. -/
theorem CodeTable.code_of_pathEntry : t.code b = p := by
  rw [code, codeBitList, toNat_len_of_pathEntry hp h]
  simp only [BitVec.getLsbD, toNat_bits_of_pathEntry hp h, map_testBit_pathValue]

end PathEntry

/-! ## One node of the two walks -/

section Walks
variable {arena : List Node} {i l r : NodeIdx} {b : Byte} {w : DWord} {c : List Byte} (seed : Nat)

theorem nodeAt_of_nodeIs {n : Node} (h : nodeIs arena i.toNat n) : nodeAt arena seed i = n := by
  rw [nodeIs] at h
  rw [nodeAt, h]

theorem walkSymbol_leaf (h : nodeIs arena i.toNat (.leaf b w)) (bits : List Bool) :
    walkSymbol arena seed i bits = .ok (b, bits) := by
  cases bits <;> simp only [walkSymbol, nodeAt_of_nodeIs seed h]

theorem walkSymbol_fork_nil (h : nodeIs arena i.toNat (.fork w c l r)) :
    walkSymbol arena seed i [] = .error .corruptEndOfStream := by
  simp only [walkSymbol, nodeAt_of_nodeIs seed h]

theorem walkSymbol_fork_cons (h : nodeIs arena i.toNat (.fork w c l r)) (bit : Bool)
    (hchild : (if bit then r else l) ≠ nodeNone) (bits : List Bool) :
    walkSymbol arena seed i (bit :: bits) = walkSymbol arena seed (if bit then r else l) bits := by
  simp only [walkSymbol, nodeAt_of_nodeIs seed h, if_neg hchild]

theorem walkCodes_leaf (h : nodeIs arena i.toNat (.leaf b w)) (fuel v d : Nat) (t : CodeTable) :
    walkCodes arena seed (fuel + 1) i v d t = some (t.record b d v) := by
  simp only [walkCodes, nodeAt_of_nodeIs seed h]

theorem walkCodes_one_child (h : nodeIs arena i.toNat (.fork w c l nodeNone)) (fuel v d : Nat) (t t' : CodeTable)
    (hl : walkCodes arena seed fuel l (Nat.bit false v) (d + 1) t = some t') :
    walkCodes arena seed (fuel + 1) i v d t = some t' := by
  rw [Nat.bit_false_apply] at hl
  simp only [walkCodes, nodeAt_of_nodeIs seed h, hl, if_true]

theorem walkCodes_two_children (h : nodeIs arena i.toNat (.fork w c l r)) (hr : r ≠ nodeNone) (fuel v d : Nat)
    (t t' : CodeTable) (hl : walkCodes arena seed fuel l (Nat.bit false v) (d + 1) t = some t') :
    walkCodes arena seed (fuel + 1) i v d t = walkCodes arena seed fuel r (Nat.bit true v) (d + 1) t' := by
  rw [Nat.bit_false_apply] at hl
  rw [Nat.bit_true_apply]
  simp only [walkCodes, nodeAt_of_nodeIs seed h, hl, if_neg hr]

/-- The decoder, started at node i, follows path p to the leaf of symbol b and leaves the rest of the bits. -/
def Leads (arena : List Node) (seed : Nat) (i : NodeIdx) (p : List Bool) (b : Byte) : Prop :=
  ∀ rest, walkSymbol arena seed i (p ++ rest) = .ok (b, rest)

theorem Leads.cons {p : List Bool} {bit : Bool} (h : nodeIs arena i.toNat (.fork w c l r))
    (hchild : (if bit then r else l) ≠ nodeNone) (hp : Leads arena seed (if bit then r else l) p b) :
    Leads arena seed i (bit :: p) b :=
  fun rest => (walkSymbol_fork_cons seed h bit hchild (p ++ rest)).trans (hp rest)

end Walks

/-! ## Trees -/

/-- Node i is the root of a tree of height h whose leaves hold the symbols of the list, each once. -/
inductive Subtree (arena : List Node) : NodeIdx → Nat → List Byte → Prop where
  | leaf {i : NodeIdx} {b : Byte} {w : DWord} (node : nodeIs arena i.toNat (.leaf b w)) : Subtree arena i 0 [b]
  | one {i l : NodeIdx} {w : DWord} {c : List Byte} {h : Nat} {bs : List Byte}
      (node : nodeIs arena i.toNat (.fork w c l nodeNone)) (hl : l ≠ nodeNone) (left : Subtree arena l h bs) :
      Subtree arena i (h + 1) bs
  | two {i l r : NodeIdx} {w : DWord} {c : List Byte} {hl hr : Nat} {bl br : List Byte}
      (node : nodeIs arena i.toNat (.fork w c l r)) (hleft : l ≠ nodeNone) (hright : r ≠ nodeNone)
      (left : Subtree arena l hl bl) (right : Subtree arena r hr br) (apart : bl.Disjoint br) :
      Subtree arena i (max hl hr + 1) (bl ++ br)

/-- A tree with a fork at its root gives no symbol the empty path. -/
theorem Subtree.not_leads_nil {arena : List Node} {i : NodeIdx} {h : Nat} {bs : List Byte} {b : Byte} (seed : Nat)
    (hs : Subtree arena i (h + 1) bs) : ¬ Leads arena seed i [] b := by
  intro hlead
  cases hs with
  | one node => cases (walkSymbol_fork_nil seed node).symm.trans (hlead [])
  | two node => cases (walkSymbol_fork_nil seed node).symm.trans (hlead [])

/-- What the assigner's walk from node i, at depth d with value v, makes of the table t: every symbol below node i has
the entry of a path that leads to its leaf, and every other entry is kept. -/
structure Assigned (arena : List Node) (seed : Nat) (i : NodeIdx) (h : Nat) (bs : List Byte) (v d : Nat)
    (t t' : CodeTable) : Prop where
  kept : ∀ b, b ∉ bs → t'.entry b = t.entry b
  paths : ∀ b ∈ bs, ∃ p, Leads arena seed i p b ∧ p.length ≤ h ∧ t'.entry b = pathEntry v d p

/-- A symbol below a child is below its parent, one bit further. -/
theorem Assigned.path_cons {arena : List Node} {seed : Nat} {i l r : NodeIdx} {w : DWord} {c : List Byte} {h h' : Nat}
    {bs : List Byte} {v d : Nat} {t t' : CodeTable} {b : Byte} (bit : Bool)
    (node : nodeIs arena i.toNat (.fork w c l r)) (hchild : (if bit then r else l) ≠ nodeNone) (hh : h ≤ h')
    (ha : Assigned arena seed (if bit then r else l) h bs (Nat.bit bit v) (d + 1) t t') (hb : b ∈ bs) :
    ∃ p, Leads arena seed i p b ∧ p.length ≤ h' + 1 ∧ t'.entry b = pathEntry v d p := by
  obtain ⟨p, hlead, hlen, hentry⟩ := ha.paths b hb
  exact ⟨bit :: p, hlead.cons seed node hchild, Nat.succ_le_succ (hlen.trans hh),
    hentry.trans (pathEntry_cons v d bit p).symm⟩

/-- R171: with a level of fuel for each node of the longest path, the assigner's walk gives every symbol its path. -/
theorem Subtree.walkCodes_assigned {arena : List Node} {i : NodeIdx} {h : Nat} {bs : List Byte}
    (hs : Subtree arena i h bs) (seed fuel v d : Nat) (t : CodeTable) (hfuel : h < fuel) :
    ∃ t', walkCodes arena seed fuel i v d t = some t' ∧ Assigned arena seed i h bs v d t t' := by
  obtain ⟨fuel, rfl⟩ := Nat.exists_eq_succ_of_ne_zero (Nat.ne_zero_of_lt hfuel)
  induction hs generalizing fuel v d t with
  | @leaf i b w node =>
    refine ⟨_, walkCodes_leaf seed node fuel v d t, fun c hc => ?_, fun c hc => ⟨[], ?_, le_rfl, ?_⟩⟩
    · rw [CodeTable.entry_record, if_neg fun h => hc (List.mem_singleton.mpr h.symm)]
    · obtain rfl := List.mem_singleton.mp hc
      exact walkSymbol_leaf seed node
    · rw [CodeTable.entry_record, if_pos (List.mem_singleton.mp hc).symm]
      rfl
  | one node hl left ih =>
    obtain ⟨fuel, rfl⟩ := Nat.exists_eq_succ_of_ne_zero (n := fuel) (by omega)
    obtain ⟨t', hwalk, ha⟩ := ih (Nat.bit false v) (d + 1) t fuel (by omega)
    exact ⟨t', walkCodes_one_child seed node _ v d t t' hwalk, ha.kept,
      fun b hb => ha.path_cons false node hl le_rfl hb⟩
  | @two i l r w c hl hr bl br node hleft hright left right apart ihl ihr =>
    obtain ⟨fuel, rfl⟩ := Nat.exists_eq_succ_of_ne_zero (n := fuel) (by omega)
    obtain ⟨tl, hwalkl, hal⟩ := ihl (Nat.bit false v) (d + 1) t fuel (by omega)
    obtain ⟨tr, hwalkr, har⟩ := ihr (Nat.bit true v) (d + 1) tl fuel (by omega)
    refine ⟨tr, (walkCodes_two_children seed node hright _ v d t tl hwalkl).trans hwalkr, fun b hb => ?_,
      fun b hb => ?_⟩
    · rw [List.mem_append, not_or] at hb
      exact (har.kept b hb.2).trans (hal.kept b hb.1)
    · by_cases hbr : b ∈ br
      · exact har.path_cons true node hright (le_max_right hl hr) hbr
      · have hbl : b ∈ bl := (List.mem_append.mp hb).resolve_right hbr
        rw [har.kept b hbr]
        exact hal.path_cons false node hleft (le_max_left hl hr) hbl

/-! ## The trees BUILD_TREE leaves -/

/-- A node of a forest is the root of a tree whose height is below the number of its symbols (R172). -/
theorem Forest.subtree {freq : Vector Word 256} {arena : List Node} {q : List QEntry} (hf : Forest freq arena q)
    (i : NodeIdx) (n : Node) (hn : nodeIs arena i.toNat n) :
    ∃ h bs, Subtree arena i h bs ∧ h < bs.length ∧ bs.Nodup ∧ ∀ b, b ∈ bs ↔ b ∈ n.content := by
  induction hi : i.toNat using Nat.strong_induction_on generalizing i n with
  | _ k ih =>
    subst hi
    cases n with
    | leaf b w => exact ⟨0, [b], .leaf hn, Nat.one_pos, List.nodup_singleton b, fun _ => Iff.rfl⟩
    | fork w c l r =>
      obtain ⟨hlt, hrt, hright, nl, nr, hl, hr, -, hcontent, hapart⟩ := hf.forks _ _ _ _ _ hn
      obtain ⟨dl, bl, hsl, hdl, hnodupl, hmeml⟩ := ih _ hlt l nl hl rfl
      obtain ⟨dr, br, hsr, hdr, hnodupr, hmemr⟩ := ih _ hrt r nr hr rfl
      have hleft : l ≠ nodeNone := fun h => by
        rw [h] at hlt
        exact absurd i.isLt (not_lt.mpr hlt)
      have hdisjoint : bl.Disjoint br := fun b hbl hbr => hapart b ((hmeml b).mp hbl) ((hmemr b).mp hbr)
      refine ⟨_, _, .two hn hleft hright hsl hsr hdisjoint, ?_, hnodupl.append hnodupr hdisjoint, fun b => ?_⟩
      · rw [List.length_append]
        omega
      · rw [List.mem_append, hmeml, hmemr]
        exact (hcontent b).symm

/-- Two symbols or more leave one tree of the queue's forest. -/
theorem forest_buildArena {freq : Vector Word 256} {nsym : BitVec 9} (hcounts : Counts freq nsym) (hnsym : nsym ≠ 0)
    (hmany : nsym ≠ 1) (seed : Nat) :
    ∃ e, Forest freq (buildArena freq nsym seed).1 [e] ∧ (buildArena freq nsym seed).2 = BitVec.ofNat 9 e.idx := by
  have hlen : (queueOf 0 (leavesOf freq)).length = (leavesOf freq).length := by
    rw [(queueOf_perm 0 _).length_eq, numbered, List.length_map, List.length_zipIdx]
  have hne : queueOf 0 (leavesOf freq) ≠ [] := fun hnil => hnsym (BitVec.eq_of_toNat_eq
    (hcounts.length_leavesOf.symm.trans (hlen.symm.trans (congrArg List.length hnil))))
  obtain ⟨arena, e, hloop, hforest⟩ := mergeLoop_forest _ _ _ (sortedForest_leavesOf freq).toForest hne
    (hlen.trans_le (Nat.le_succ _))
  have hbuilt : buildArena freq nsym seed = (arena, BitVec.ofNat 9 e.idx) := by
    simp only [buildArena, if_neg hmany, hloop]
  rw [hbuilt]
  exact ⟨e, hforest, rfl⟩

theorem nodup_present (freq : Vector Word 256) : (present freq).Nodup := (pairwise_present freq).imp BitVec.ne_of_lt

/-- R171, R172: ROOT is a fork, and no path from it is longer than 255. -/
theorem subtree_buildArena {freq : Vector Word 256} {nsym : BitVec 9} (hcounts : Counts freq nsym) (hnsym : nsym ≠ 0)
    (seed : Nat) : ∃ h bs, Subtree (buildArena freq nsym seed).1 (buildArena freq nsym seed).2 (h + 1) bs ∧
      h + 1 ≤ 255 ∧ ∀ b, b ∈ bs ↔ tget freq b ≠ 0 := by
  by_cases hone : nsym = 1
  · obtain ⟨b, hb, hbuilt⟩ := buildArena_one hcounts hone
    rw [hbuilt]
    refine ⟨0, [b], .one rfl (by decide) (.leaf rfl), by decide, fun c => ?_⟩
    rw [← mem_present, hb]
  · obtain ⟨e, hforest, hroot⟩ := forest_buildArena hcounts hnsym hone seed
    obtain ⟨n, hn, hcontent⟩ := (treeOk_buildArena freq nsym seed hcounts hnsym).root_content
    obtain ⟨h, bs, hs, hlt, hnodup, hmem⟩ := hforest.subtree _ n hn
    have hmem' (b : Byte) : b ∈ bs ↔ tget freq b ≠ 0 := (hmem b).trans (hcontent b)
    have hlen : bs.length = nsym.toNat := hcounts ▸ ((List.perm_ext_iff_of_nodup hnodup (nodup_present freq)).mpr
      fun b => (hmem' b).trans (mem_present freq b).symm).length_eq
    have hle := length_present_le freq
    rw [← hcounts, ← hlen] at hle
    cases h with
    | zero =>
      cases hs
      exact absurd (BitVec.eq_of_toNat_eq hlen.symm) hone
    | succ h => exact ⟨h, bs, hs, by omega, hmem'⟩

/-- R171, R172: the code of a present symbol is a path of 1 to 255 bits from ROOT to its leaf; an absent symbol has no
code. -/
theorem codesOf_buildArena {freq : Vector Word 256} {nsym : BitVec 9} (hcounts : Counts freq nsym) (hnsym : nsym ≠ 0)
    (seed seed' : Nat) :
    (∀ b, tget freq b ≠ 0 → ∃ p, Leads (buildArena freq nsym seed).1 seed' (buildArena freq nsym seed).2 p b ∧
      p ≠ [] ∧ p.length ≤ 255 ∧
      (codesOf (buildArena freq nsym seed).1 (buildArena freq nsym seed).2 seed').entry b = pathEntry 0 0 p) ∧
    (∀ b, tget freq b = 0 →
      (codesOf (buildArena freq nsym seed).1 (buildArena freq nsym seed).2 seed').entry b = (0, 0)) := by
  obtain ⟨h, bs, hs, hheight, hmem⟩ := subtree_buildArena hcounts hnsym seed
  obtain ⟨t, hwalk, ha⟩ := hs.walkCodes_assigned seed' 256 0 0 emptyCodes (by omega)
  rw [codesOf, hwalk]
  refine ⟨fun b hb => ?_, fun b hb => ?_⟩
  · obtain ⟨p, hlead, hlen, hentry⟩ := ha.paths b ((hmem b).mpr hb)
    exact ⟨p, hlead, fun hnil => hs.not_leads_nil seed' (hnil ▸ hlead), hlen.trans hheight, hentry⟩
  · exact (ha.kept b fun hin => (hmem b).mp hin hb).trans (CodeTable.entry_emptyCodes b)

/-! ## ASSIGN_CODES -/

/-- The codes ASSIGN_CODES gives the tree of s. -/
def State.codes (s : State) : CodeTable := codesOf s.arena s.root s.draws

/-- R171: an unraced ASSIGN_CODES of a valid tree loads its codes. -/
theorem exec_assignCodes_of_tree {s : State} (hraced : s.raced = false) (htree : s.treeValid = true) :
    exec .assignCodes s = .next (s.loadCodes s.codes).completeOk := by
  obtain ⟨hno, -⟩ | ⟨-, hrun⟩ := runAssignCodes_cases s
  · exact absurd htree (by simp [hno])
  · rw [exec_unraced .assignCodes s hraced, runOf, hrun, Run.complete_ok, State.codes]

section Truthful
variable {s : State} (hs : s.FlagsTruthful) (htree : s.treeValid = true) {b : Byte}
include hs htree

/-- R45: a valid tree is one that BUILD_TREE gives for FREQ. -/
theorem State.FlagsTruthful.exists_built : ∃ seed, (s.arena, s.root) = buildArena s.freq s.nsym seed ∧
    Counts s.freq s.nsym ∧ s.nsym ≠ 0 := by
  obtain ⟨htable, hbuilt, -, -⟩ := hs
  obtain ⟨hvalid, hnsym, seed, harena⟩ := hbuilt htree
  exact ⟨seed, harena, (htable hvalid).1, hnsym⟩

theorem State.FlagsTruthful.path_of_present (hb : tget s.freq b ≠ 0) : ∃ p, Leads s.arena s.draws s.root p b ∧
    p ≠ [] ∧ p.length ≤ 255 ∧ s.codes.entry b = pathEntry 0 0 p := by
  obtain ⟨seed, harena, hcounts, hnsym⟩ := hs.exists_built htree
  obtain ⟨hpresent, -⟩ := codesOf_buildArena hcounts hnsym seed s.draws
  rw [← harena] at hpresent
  exact hpresent b hb

theorem State.FlagsTruthful.entry_of_absent (hb : tget s.freq b = 0) : s.codes.entry b = (0, 0) := by
  obtain ⟨seed, harena, hcounts, hnsym⟩ := hs.exists_built htree
  obtain ⟨-, habsent⟩ := codesOf_buildArena hcounts hnsym seed s.draws
  rw [← harena] at habsent
  exact habsent b hb

theorem State.FlagsTruthful.code_leads (hb : tget s.freq b ≠ 0) :
    Leads s.arena s.draws s.root (s.codes.code b) b := by
  obtain ⟨p, hlead, -, hlen, hentry⟩ := hs.path_of_present htree hb
  rwa [CodeTable.code_of_pathEntry hlen hentry]

theorem State.FlagsTruthful.len_pos (hb : tget s.freq b ≠ 0) : 1 ≤ (tget s.codes.len b).toNat := by
  obtain ⟨p, -, hne, hlen, hentry⟩ := hs.path_of_present htree hb
  rw [CodeTable.toNat_len_of_pathEntry hlen hentry]
  exact List.length_pos_of_ne_nil hne

theorem State.FlagsTruthful.bits_lt : (tget s.codes.bits b).toNat < 2 ^ (tget s.codes.len b).toNat := by
  by_cases hb : tget s.freq b = 0
  · obtain ⟨hl, hv⟩ := Prod.mk.inj (hs.entry_of_absent htree hb)
    rw [hl, hv]
    decide
  · obtain ⟨p, -, -, hlen, hentry⟩ := hs.path_of_present htree hb
    rw [CodeTable.toNat_len_of_pathEntry hlen hentry, CodeTable.toNat_bits_of_pathEntry hlen hentry]
    exact pathValue_lt p

end Truthful

/-- Of two paths from one node one begins with the other only if both lead to the same leaf. -/
theorem Leads.eq_of_prefix {arena : List Node} {seed : Nat} {i : NodeIdx} {p p' : List Bool} {b b' : Byte}
    (h : Leads arena seed i p b) (h' : Leads arena seed i p' b') (hprefix : p <+: p') : b = b' := by
  obtain ⟨rest, rfl⟩ := hprefix
  have hwalk := h' []
  rw [List.append_nil, h rest] at hwalk
  cases hwalk
  rfl

/-! ## FINAL_BITS (R34) -/

theorem finalBitsOf_of_full {t : DWord} (h0 : t ≠ 0) (h : t.toNat % 8 = 0) : finalBitsOf t = 8 := by
  rw [finalBitsOf, if_neg h0, if_pos h]

theorem toNat_finalBitsOf_of_part {t : DWord} (h : t.toNat % 8 ≠ 0) : (finalBitsOf t).toNat = t.toNat % 8 := by
  have h0 : t ≠ 0 := fun h0 => h (h0 ▸ rfl)
  rw [finalBitsOf, if_neg h0, if_neg h, BitVec.toNat_ofNat]
  omega

theorem toNat_totalBitsOf (freq : Vector Word 256) (codeLen : Vector Byte 256) :
    (totalBitsOf freq codeLen).toNat = (allSyms.map fun b => (tget freq b).toNat * (tget codeLen b).toNat).sum := by
  rw [totalBitsOf, BitVec.toNat_ofNat, Nat.mod_eq_of_lt (codedBits_lt freq codeLen), codedBits_eq_sum]

end Sys2Proof.Machine

namespace Sys2Proof.Proofs
open Sys2Proof.Machine

/-- Settles O35: the frame is `loadCodes`'s, and a present symbol's code is the path to its leaf. -/
theorem assignCodesCompletes : Obligations.AssignCodesCompletes := by
  intro s hraced htree
  refine ⟨_, exec_assignCodes_of_tree hraced htree, rfl, toNat_totalBitsOf _ _, fun h0 => ?zero,
    finalBitsOf_of_full, toNat_finalBitsOf_of_part, fun hs b hb => hs.code_leads htree hb,
    fun hs b hb => Prod.mk.inj (hs.entry_of_absent htree hb)⟩
  case zero => exact if_pos h0

/-- Settles O36: a code is a non-empty path of at most 255 bits, and a code that begins with another leads to the same
symbol. -/
theorem codesArePrefixFree : Obligations.CodesArePrefixFree := by
  intro s t hraced htree hs h
  cases (exec_assignCodes_of_tree hraced htree).symm.trans h
  refine ⟨fun b hb => ⟨hs.len_pos htree hb, Nat.le_of_lt_succ (BitVec.isLt _)⟩, fun b => hs.bits_lt htree,
    fun b b' hb hb' hne hprefix => hne ?_⟩
  exact (hs.code_leads htree hb).eq_of_prefix (hs.code_leads htree hb') hprefix

end Sys2Proof.Proofs
end

section
/-! PROOFS. EMIT_STREAM (44_encoder.md R180 to R188): the checks before any access as one value, the stream's bytes read
back from memory, and, where the flags are truthful, the payload that fills exactly the bytes left for it (R184). -/

namespace Sys2Proof.Machine

/-! ## Big-endian integers (R62) -/

theorem beBytes_succ (n v : Nat) : beBytes (n + 1) v = beBytes n (v / 256) ++ [BitVec.ofNat 8 v] := by
  have hplace : ∀ i ∈ List.range n, BitVec.ofNat 8 (v / 256 ^ (n - i)) =
      BitVec.ofNat 8 (v / 256 / 256 ^ (n - 1 - i)) := fun i hi => by
    rw [Nat.div_div_eq_div_mul, ← pow_succ', show n - i = n - 1 - i + 1 by have := List.mem_range.mp hi; omega]
  rw [beBytes, List.range_succ, List.map_append, Nat.add_sub_cancel, List.map_congr_left hplace, List.map_singleton,
    Nat.sub_self, pow_zero, Nat.div_one]
  rfl

/-- Reading big-endian bytes gives the number they were made of. -/
theorem foldl_beBytes (n v : Nat) :
    (beBytes n v).foldl (fun acc b => acc * 256 + b.toNat) 0 = v % 256 ^ n := by
  induction n generalizing v with
  | zero => exact (Nat.mod_one v).symm
  | succ n ih =>
    have hmod : v % (256 * 256 ^ n) = v % 256 + 256 * (v / 256 % 256 ^ n) := Nat.mod_mul
    rw [beBytes_succ, List.foldl_append, ih, pow_succ', hmod, Nat.add_comm, Nat.mul_comm]
    rfl

theorem Memory.beRead_of_bytes {m : Memory} {a n v : Nat} (h : m.bytes a n = beBytes n v) (hv : v < 256 ^ n) :
    m.beRead a n = v := by
  rw [Memory.beRead, h, foldl_beBytes, Nat.mod_eq_of_lt hv]

theorem Memory.bytes_add (m : Memory) (a k n : Nat) : m.bytes a (k + n) = m.bytes a k ++ m.bytes (a + k) n := by
  simp only [Memory.bytes, List.range_add, List.map_append, List.map_map, Function.comp_def, Nat.add_assoc]

theorem Memory.bytes_writeBytes_outside (m : Memory) (a n b : Nat) (bs : List Byte)
    (h : a + n ≤ b ∨ b + bs.length ≤ a) : (m.writeBytes b bs).bytes a n = m.bytes a n :=
  Memory.bytes_congr _ _ _ _ fun x _ _ => m.read_writeBytes_outside b x bs (by omega)

/-! ## The checks before any access (R180, R181; 60_exceptions.md R235) -/

theorem State.emptyTable_iff (s : State) : s.emptyTable = true ↔ s.tableValid = true ∧ s.nsym = 0 := by
  rw [State.emptyTable, Bool.and_eq_true, decide_eq_true_eq]

/-- The error EMIT_STREAM ends with before any access, if one applies. -/
def State.emitRefusal (s : State) : Option ErrCode :=
  if !(s.codesValid || s.emptyTable) then some .sequence
  else if !(s.srcWindow.inRange && s.dstWindow.inRange) then some .addressRange
  else if s.srcWindow.overlaps s.dstWindow then some .overlap
  else if s.dstCap.toNat < s.emitSize then some .outputOverflow
  else none

/-- EMIT_STREAM is refused, or compares the histograms (R180, R188). -/
theorem runEmitStream_eq (s : State) : runEmitStream s =
    match s.emitRefusal with
    | some e => .raise e { s with resultLen := 0 }
    | none =>
      if histogram s.srcBytes = s.freq then .ok s.emitted
      else .raise .inputMismatch { s with mem := s.scrambleDst, resultLen := 0 } := by
  have htable : (!tableEq (histogram s.srcBytes) s.freq) = true ↔ ¬ histogram s.srcBytes = s.freq := by
    rw [Bool.not_eq_true', ← Bool.not_eq_true, tableEq_iff]
  unfold runEmitStream State.emitRefusal
  simp only [htable, ite_not]
  split_ifs <;> rfl

section Checks
variable {s : State}

theorem runEmitStream_of_refused {e : ErrCode} (h : s.emitRefusal = some e) :
    runEmitStream s = .raise e { s with resultLen := 0 } := by
  rw [runEmitStream_eq, h]

theorem runEmitStream_of_match (h : s.emitRefusal = none) (hmatch : histogram s.srcBytes = s.freq) :
    runEmitStream s = .ok s.emitted := by
  rw [runEmitStream_eq, h]
  exact if_pos hmatch

theorem runEmitStream_of_mismatch (h : s.emitRefusal = none) (hmatch : histogram s.srcBytes ≠ s.freq) :
    runEmitStream s = .raise .inputMismatch { s with mem := s.scrambleDst, resultLen := 0 } := by
  rw [runEmitStream_eq, h]
  exact if_neg hmatch

variable (hcodes : s.codesValid = true ∨ (s.tableValid = true ∧ s.nsym = 0))
include hcodes

/-- R181 and R64: with the codes valid or the table empty, the window checks decide. -/
theorem State.emitRefusal_of_encodable : s.emitRefusal =
    if ¬ (s.srcAddr.toNat + s.srcLen.toNat ≤ 2 ^ 32 ∧ s.dstAddr.toNat + s.dstCap.toNat ≤ 2 ^ 32) then
      some .addressRange
    else if s.srcWindow.overlaps s.dstWindow = true then some .overlap
    else if s.dstCap.toNat < s.emitSize then some .outputOverflow
    else none := by
  have hready : (s.codesValid || s.emptyTable) = true := by rwa [Bool.or_eq_true, s.emptyTable_iff]
  have hrange : (s.srcWindow.inRange && s.dstWindow.inRange) = true ↔
      s.srcAddr.toNat + s.srcLen.toNat ≤ 2 ^ 32 ∧ s.dstAddr.toNat + s.dstCap.toNat ≤ 2 ^ 32 := by
    rw [Bool.and_eq_true, Window.inRange_iff, Window.inRange_iff]
    rfl
  simp only [State.emitRefusal, hready, Bool.not_true, Bool.false_eq_true, if_false, Bool.not_eq_true', ← hrange,
    Bool.not_eq_true]

theorem State.emitRefusal_eq_none (hsrc : s.srcAddr.toNat + s.srcLen.toNat ≤ 2 ^ 32)
    (hdst : s.dstAddr.toNat + s.dstCap.toNat ≤ 2 ^ 32) (hapart : s.srcWindow.overlaps s.dstWindow = false)
    (hfits : s.emitSize ≤ s.dstCap.toNat) : s.emitRefusal = none := by
  rw [State.emitRefusal_of_encodable hcodes, if_neg (not_not.mpr ⟨hsrc, hdst⟩), if_neg (by simp [hapart]),
    if_neg (not_lt.mpr hfits)]

end Checks

/-! ## A completed EMIT_STREAM -/

section Completed
variable {s : State}

theorem exec_emitStream_of_match (hraced : s.raced = false) (h : s.emitRefusal = none)
    (hmatch : histogram s.srcBytes = s.freq) : exec .emitStream s = .next s.emitted.completeOk := by
  rw [exec_unraced .emitStream s hraced, runOf, runEmitStream_of_match h hmatch, Run.complete_ok]

/-- R187: what else EMIT_STREAM changes. -/
theorem State.emitted_completeOk_eq (s : State) : s.emitted.completeOk = { s with
    mem := s.emitted.completeOk.mem, resultLen := s.emitted.completeOk.resultLen
    totalBits := if s.tableValid = true ∧ s.nsym = 0 then 0 else s.totalBits
    finalBits := if s.tableValid = true ∧ s.nsym = 0 then 0 else s.finalBits
    inflight := none, done := true, err := false, errCode := .none, doneIp := true
    draws := s.emitted.completeOk.draws } := by
  simp only [← s.emptyTable_iff]
  rfl

theorem State.toNat_emitted_resultLen (hfits : s.emitSize ≤ s.dstCap.toNat) :
    s.emitted.resultLen.toNat = s.emitSize := by
  rw [State.emitted_resultLen, BitVec.toNat_ofNat, Nat.mod_eq_of_lt (lt_of_le_of_lt hfits s.dstCap.isLt)]

theorem State.toNat_emitted_totalBits (s : State) : s.emitted.totalBits.toNat = s.emitTotalBits := by
  rw [State.emitted_totalBits, State.emitTotalBits, apply_ite BitVec.toNat]
  rfl

theorem State.toNat_emitted_finalBits (s : State) : s.emitted.finalBits.toNat = s.emitFinalBits := by
  rw [State.emitted_finalBits, State.emitFinalBits, apply_ite BitVec.toNat]
  rfl

/-! ## The fixed fields and finalByteBits (R185), whatever the tables -/

theorem State.emitSize_eq (s : State) : s.emitSize = 13 + 5 * s.nsym.toNat + ceil8 s.emitTotalBits := rfl

/-- The two pieces that are written: the entries up to the size, and finalByteBits with the payload. -/
theorem State.emitMem_eq_writes (s : State) : s.emitMem =
    (s.mem.writeBytes s.dstAddr.toNat
      ((headerStart s.freq s.nsym.toNat s.origLen.toNat).take s.emitSize)).writeBytes
      (s.dstAddr.toNat + 12 + 5 * s.nsym.toNat)
      (BitVec.ofNat 8 s.emitFinalBits :: (packBits s.emitBits).take (ceil8 s.emitTotalBits)) := by
  have hlast : headerLen s.nsym.toNat - 1 = 12 + 5 * s.nsym.toNat := by unfold headerLen; omega
  have hrest : s.emitSize - (12 + 5 * s.nsym.toNat) = ceil8 s.emitTotalBits + 1 := by
    rw [s.emitSize_eq]; omega
  simp only [State.emitMem, hlast, hrest, List.take_succ_cons, Nat.add_assoc]

variable (hwf : s.mem.wf = true) (hroom : s.dstAddr.toNat + s.emitSize ≤ 2 ^ 32)
include hwf hroom

/-- R185: NSYM and ORIG_LEN come first, and nothing is written over them. -/
theorem State.bytes_emitMem_fixed :
    s.emitMem.bytes s.dstAddr.toNat 12 = beBytes 4 s.nsym.toNat ++ beBytes 8 s.origLen.toNat := by
  have hsize := s.emitSize_eq
  have hlen : (beBytes 4 s.nsym.toNat ++ beBytes 8 s.origLen.toNat).length = 12 := by simp
  rw [s.emitMem_eq_writes, Memory.bytes_writeBytes_outside _ _ _ _ _ (by omega), headerStart,
    List.take_append, List.take_of_length_le (by omega), Memory.writeBytes_append,
    Memory.bytes_writeBytes_outside _ _ _ _ _ (by omega), ← hlen]
  exact Memory.bytes_writeBytes _ _ _ hwf (by unfold addrSpace; omega)

theorem State.beRead_emitMem_nsym : s.emitMem.beRead s.dstAddr.toNat 4 = s.nsym.toNat := by
  have hbytes := State.bytes_emitMem_fixed hwf hroom
  rw [Memory.bytes_add _ _ 4 8] at hbytes
  exact Memory.beRead_of_bytes (List.append_inj hbytes (by simp)).1 (by have := s.nsym.isLt; omega)

theorem State.beRead_emitMem_origLen : s.emitMem.beRead (s.dstAddr.toNat + 4) 8 = s.origLen.toNat := by
  have hbytes := State.bytes_emitMem_fixed hwf hroom
  rw [Memory.bytes_add _ _ 4 8] at hbytes
  exact Memory.beRead_of_bytes (List.append_inj hbytes (by simp)).2 s.origLen.isLt

theorem State.read_emitMem_finalByteBits :
    (s.emitMem.read (s.dstAddr.toNat + 12 + 5 * s.nsym.toNat)).toNat = s.emitFinalBits := by
  have hsize := s.emitSize_eq
  have hbyte : s.emitMem.read (s.dstAddr.toNat + 12 + 5 * s.nsym.toNat) = BitVec.ofNat 8 s.emitFinalBits := by
    rw [s.emitMem_eq_writes]
    exact Memory.read_writeBytes_inside _ _ 0 _ (Memory.wf_writeBytes _ _ _ hwf) (by simp)
      (by simp only [List.length_cons, List.length_take, addrSpace]; omega)
  have hlt : s.emitFinalBits < 2 ^ 4 := s.toNat_emitted_finalBits ▸ s.emitted.finalBits.isLt
  rw [hbyte, BitVec.toNat_ofNat, Nat.mod_eq_of_lt (by omega)]

end Completed

/-! ## A second EMIT_STREAM (R187) -/

section Again
variable {s : State}

theorem Window.not_contains_of_not_overlaps {v w : Window} {a : Nat} (h : v.overlaps w = false)
    (ha : v.contains a = true) : w.contains a = false := by
  by_contra hw
  rw [Bool.not_eq_false, Window.contains_iff] at hw
  rw [Window.contains_iff] at ha
  have := of_decide_eq_false h
  omega

/-- The source window keeps its bytes. -/
theorem State.srcBytes_emitMem (hapart : s.srcWindow.overlaps s.dstWindow = false)
    (hfits : s.emitSize ≤ s.dstCap.toNat) : (s.setMem s.emitMem).srcBytes = s.srcBytes := by
  refine State.Agrees.srcBytes fun w hw a ha => ?_
  cases List.mem_singleton.mp hw
  have hout := Window.not_contains_of_not_overlaps hapart ha
  refine s.read_emitMem_outside a ?_
  have := of_decide_eq_false hout
  simp only [State.dstWindow] at this
  omega

/-- TOTAL_BITS is cleared only where it does not count. -/
theorem State.emitTotalBits_emitted (s : State) : s.emitted.emitTotalBits = s.emitTotalBits := by
  have hempty : s.emitted.emptyTable = s.emptyTable := rfl
  simp only [State.emitTotalBits, hempty, State.emitted_totalBits]
  split_ifs <;> rfl

theorem State.emitFinalBits_emitted (s : State) : s.emitted.emitFinalBits = s.emitFinalBits := by
  have hempty : s.emitted.emptyTable = s.emptyTable := rfl
  simp only [State.emitFinalBits, hempty, State.emitted_finalBits]
  split_ifs <;> rfl

theorem State.emitSize_emitted (s : State) : s.emitted.emitSize = s.emitSize := by
  rw [State.emitSize_eq, State.emitSize_eq, State.emitTotalBits_emitted]
  rfl

theorem State.emitMem_emitted (s : State) : s.emitted.emitMem = (s.setMem s.emitMem).emitMem := by
  rw [State.emitMem_eq_writes, State.emitMem_eq_writes, State.emitSize_emitted, State.emitTotalBits_emitted,
    State.emitFinalBits_emitted]
  rfl

theorem State.emitRefusal_emitted (s : State) : s.emitted.emitRefusal = s.emitRefusal := by
  rw [State.emitRefusal, State.emitSize_emitted]
  rfl

/-- R187: done twice, EMIT_STREAM writes the same bytes, over what the first left. -/
theorem State.read_emitMem_emitted (hwf : s.mem.wf = true) (hapart : s.srcWindow.overlaps s.dstWindow = false)
    (hfits : s.emitSize ≤ s.dstCap.toNat) (a : Nat) : s.emitted.emitMem.read a = s.emitMem.read a := by
  have hfirst : s.emitMem = s.streamInto s.mem := s.emitMem_setMem s.mem rfl
  have hagain : s.emitted.emitMem = s.streamInto s.emitMem :=
    s.emitMem_emitted.trans (s.emitMem_setMem _ (State.srcBytes_emitMem hapart hfits))
  obtain heq | ⟨heq, -⟩ := (s.streamInto_storesIn hfits).alike s.emitMem s.mem a (s.wf_emitMem hwf) hwf
  · rw [hagain, heq, ← hfirst]
  · rw [hagain, heq]

end Again

/-! ## The payload of a truthful table (R184) -/

/-- The payload has as many bits as FREQ and CODE_LEN say. -/
theorem State.length_emitBits {s : State} (hmatch : histogram s.srcBytes = s.freq) :
    s.emitBits.length = codedBits s.freq s.codeLen := by
  rw [← hmatch]
  exact (Proofs.payloadLengthIsTotalBits s.srcBytes s.codeLen s.codeBits (s.length_srcBytes ▸ s.srcLen.isLt)).1

theorem codedBits_of_no_symbol {freq : Vector Word 256} (h : present freq = []) (codeLen : Vector Byte 256) :
    codedBits freq codeLen = 0 := by
  have hzero : ∀ b, tget freq b = 0 := fun b => by
    by_contra hb
    exact List.not_mem_nil (h ▸ (mem_present freq b).mpr hb)
  simp [codedBits_eq_sum, hzero]

section Truthful
variable {s : State} (hs : s.FlagsTruthful) (hcodes : s.codesValid = true ∨ (s.tableValid = true ∧ s.nsym = 0))
include hs hcodes

theorem State.FlagsTruthful.counts_of_encodable : Counts s.freq s.nsym := by
  obtain ⟨htable, htree, hvalid, -⟩ := hs
  obtain hc | ⟨ht, -⟩ := hcodes
  · exact (htable (htree (hvalid hc).1).1).1
  · exact (htable ht).1

/-- R184: TOTAL_BITS is the payload's length; an empty table has none. -/
theorem State.FlagsTruthful.codedBits_eq_emitTotalBits : codedBits s.freq s.codeLen = s.emitTotalBits := by
  have hcounts := hs.counts_of_encodable hcodes
  unfold State.emitTotalBits
  split_ifs with hempty
  · have hzero : s.nsym = 0 := ((s.emptyTable_iff).mp hempty).2
    exact codedBits_of_no_symbol (List.length_eq_zero_iff.mp (hcounts.symm.trans (congrArg BitVec.toNat hzero))) _
  · obtain ⟨-, -, hvalid, -⟩ := hs
    obtain ⟨-, -, htotal, -⟩ := hvalid (hcodes.resolve_right (mt s.emptyTable_iff.mpr hempty))
    exact htotal.symm

/-- R187: FINAL_BITS belongs to TOTAL_BITS, cleared or not. -/
theorem State.FlagsTruthful.emitted_finalBits : s.emitted.finalBits = finalBitsOf s.emitted.totalBits := by
  rw [State.emitted_finalBits, State.emitted_totalBits]
  split_ifs with hempty
  · rfl
  · obtain ⟨-, -, hvalid, -⟩ := hs
    obtain ⟨-, -, -, hfinal⟩ := hvalid (hcodes.resolve_right (mt s.emptyTable_iff.mpr hempty))
    exact hfinal

theorem State.FlagsTruthful.emitMem_eq (hmatch : histogram s.srcBytes = s.freq) :
    s.emitMem = s.mem.writeBytes s.dstAddr.toNat
      (headerBytes s.freq s.nsym.toNat s.origLen.toNat s.emitFinalBits ++ packBits s.emitBits) := by
  refine s.emitMem_eq (hs.counts_of_encodable hcodes).symm ?_
  rw [length_packBits, State.length_emitBits hmatch, hs.codedBits_eq_emitTotalBits hcodes]

theorem State.FlagsTruthful.length_stream (hmatch : histogram s.srcBytes = s.freq) :
    (headerBytes s.freq s.nsym.toNat s.origLen.toNat s.emitFinalBits ++ packBits s.emitBits).length = s.emitSize := by
  have hcounts : s.nsym.toNat = (present s.freq).length := hs.counts_of_encodable hcodes
  rw [List.length_append, headerBytes, List.length_append, length_headerStart, List.length_singleton,
    length_packBits, State.length_emitBits hmatch, hs.codedBits_eq_emitTotalBits hcodes, s.emitSize_eq, hcounts]
  omega

/-- R185, R186: the stream, read back. -/
theorem State.FlagsTruthful.bytes_emitMem (hwf : s.mem.wf = true) (hroom : s.dstAddr.toNat + s.emitSize ≤ 2 ^ 32)
    (hmatch : histogram s.srcBytes = s.freq) : s.emitMem.bytes s.dstAddr.toNat s.emitSize =
      headerBytes s.freq s.nsym.toNat s.origLen.toNat s.emitFinalBits ++ packBits s.emitBits := by
  have hlen := hs.length_stream hcodes hmatch
  rw [hs.emitMem_eq hcodes hmatch, ← hlen]
  exact Memory.bytes_writeBytes _ _ _ hwf (hlen.symm ▸ hroom)

end Truthful
end Sys2Proof.Machine

namespace Sys2Proof.Proofs
open Sys2Proof.Machine

/-- Settles O38: with truthful flags the payload fills the bytes left for it, so what is written is the stream. -/
theorem emitStreamCompletes : Obligations.EmitStreamCompletes := by
  intro s hraced hwf hs hcodes hsrc hdst hapart hfits hmatch
  have hready := State.emitRefusal_eq_none hcodes hsrc hdst hapart hfits
  exact ⟨_, exec_emitStream_of_match hraced hready hmatch, hs.bytes_emitMem hcodes hwf (by omega) hmatch,
    s.read_emitMem_outside, State.toNat_emitted_resultLen hfits, s.emitted_completeOk_eq⟩

/-- Settles O60: the fixed fields and finalByteBits are written whatever the tables, and a second run stores the same
bytes into what the first left. -/
theorem emitStreamWritesItsSize : Obligations.EmitStreamWritesItsSize := by
  intro s hraced hwf hcodes hsrc hdst hapart hfits hmatch
  have hready := State.emitRefusal_eq_none hcodes hsrc hdst hapart hfits
  have hroom : s.dstAddr.toNat + s.emitSize ≤ 2 ^ 32 := by omega
  have hready' : s.emitted.completeOk.emitRefusal = none := s.emitRefusal_emitted.trans hready
  have hmatch' : histogram s.emitted.completeOk.srcBytes = s.freq :=
    (congrArg histogram (State.srcBytes_emitMem hapart hfits)).trans hmatch
  exact ⟨_, exec_emitStream_of_match hraced hready hmatch, s.read_emitMem_outside,
    State.beRead_emitMem_nsym hwf hroom, State.beRead_emitMem_origLen hwf hroom,
    State.read_emitMem_finalByteBits hwf hroom, State.toNat_emitted_resultLen hfits, s.emitted_completeOk_eq,
    _, exec_emitStream_of_match rfl hready' hmatch', rfl, State.read_emitMem_emitted hwf hapart hfits⟩

/-- Settles O39: the histograms are compared after the four checks, and only the destination window is scrambled. -/
theorem emitStreamMismatch : Obligations.EmitStreamMismatch := by
  intro s hraced hcodes hsrc hdst hapart hfits hmatch
  have hready := State.emitRefusal_eq_none hcodes hsrc hdst hapart hfits
  refine ⟨_, exec_unraced .emitStream s hraced, ?_⟩
  rw [runOf, runEmitStream_of_mismatch hready hmatch]
  exact ⟨s.read_scrambleDst_outside, rfl⟩

end Sys2Proof.Proofs
end

section
/-! PROOFS. ENCODE (44_encoder.md R190 to R192): COUNT, BUILD_TREE and ASSIGN_CODES leave a table, tree and codes of the
source whose flags are truthful, and EMIT_STREAM of that state completes or is refused. -/

namespace Sys2Proof.Machine

/-- What COUNT leaves of a source in range (R132). -/
def State.counted (s : State) : State := (s.loadTable (histogram s.srcBytes) s.srcLen.toNat).flagsTable

/-- What ENCODE's steps before EMIT_STREAM leave: an empty source has no tree and no codes (R191). Its fields have
lemmas below; it is irreducible so that no comparison of two states unfolds it. -/
@[irreducible] def State.encodeStart (s : State) : State :=
  if s.counted.nsym = 0 then s.counted else s.counted.treeBuilt.loadCodes s.counted.treeBuilt.codes

theorem runCount_of_inRange {s : State} (hsrc : s.srcWindow.inRange = true) : runCount s = .ok s.counted := if_pos hsrc

theorem runBuildAndAssign_counted (s : State) : runBuildAndAssign s.counted = .ok s.encodeStart := by
  unfold runBuildAndAssign State.encodeStart
  split_ifs with hnsym
  · rfl
  · have hbuild : runBuildTree s.counted = .ok s.counted.treeBuilt := if_neg hnsym
    rw [hbuild]
    rfl

theorem Run.zeroLength_zeroLength (r : Run) : r.zeroLength.zeroLength = r.zeroLength := by cases r <;> rfl

/-- After COUNT, ENCODE is EMIT_STREAM of what its other steps leave. -/
theorem runEncode_of_inRange {s : State} (hsrc : s.srcWindow.inRange = true) :
    runEncode s = runEmitStream s.encodeStart := by
  rw [runEncode, runCount_of_inRange hsrc, Run.andThen_ok, runBuildAndAssign_counted, Run.andThen_ok]
  exact Run.zeroLength_zeroLength _

/-! ## What the steps before EMIT_STREAM change, and what not -/

/-- BUILD_TREE and ASSIGN_CODES change the tree, the codes, the totals and two flags. -/
theorem State.loadCodes_treeBuilt_eq (s : State) (t : CodeTable) : s.treeBuilt.loadCodes t = { s with
    arena := (s.treeBuilt.loadCodes t).arena, root := (s.treeBuilt.loadCodes t).root
    codeLen := (s.treeBuilt.loadCodes t).codeLen, codeBits := (s.treeBuilt.loadCodes t).codeBits
    totalBits := (s.treeBuilt.loadCodes t).totalBits, finalBits := (s.treeBuilt.loadCodes t).finalBits
    treeValid := true, codesValid := true } := rfl

theorem State.encodeStart_eq_counted (s : State) : s.encodeStart = { s.counted with
    arena := s.encodeStart.arena, root := s.encodeStart.root
    codeLen := s.encodeStart.codeLen, codeBits := s.encodeStart.codeBits
    totalBits := s.encodeStart.totalBits, finalBits := s.encodeStart.finalBits
    treeValid := decide (s.counted.nsym ≠ 0), codesValid := decide (s.counted.nsym ≠ 0) } := by
  unfold State.encodeStart
  split_ifs with h
  · rw [decide_eq_false (not_not.mpr h)]
    rfl
  · rw [decide_eq_true h]
    exact s.counted.loadCodes_treeBuilt_eq _

theorem State.encodeStart_freq (s : State) : s.encodeStart.freq = histogram s.srcBytes :=
  congrArg State.freq s.encodeStart_eq_counted

theorem State.encodeStart_nsym (s : State) : s.encodeStart.nsym = nsymOf (histogram s.srcBytes) :=
  congrArg State.nsym s.encodeStart_eq_counted

theorem State.encodeStart_of_empty {s : State} (h : s.encodeStart.nsym = 0) : s.encodeStart = s.counted := by
  have hnsym : s.counted.nsym = 0 := s.encodeStart_nsym.symm.trans h
  rw [State.encodeStart, if_pos hnsym]

theorem State.encodeStart_of_symbol {s : State} (h : s.encodeStart.nsym ≠ 0) :
    s.encodeStart = s.counted.treeBuilt.loadCodes s.counted.treeBuilt.codes := by
  have hnsym : s.counted.nsym ≠ 0 := fun h0 => h (s.encodeStart_nsym.trans h0)
  rw [State.encodeStart, if_neg hnsym]

theorem State.encodeStart_eq (s : State) : s.encodeStart = { s with
    freq := s.encodeStart.freq, nsym := s.encodeStart.nsym, origLen := s.srcLen.setWidth 64
    arena := s.encodeStart.arena, root := s.encodeStart.root
    codeLen := s.encodeStart.codeLen, codeBits := s.encodeStart.codeBits
    totalBits := s.encodeStart.totalBits, finalBits := s.encodeStart.finalBits
    tableValid := true, hdrValid := false
    treeValid := decide (s.encodeStart.nsym ≠ 0), codesValid := decide (s.encodeStart.nsym ≠ 0) } := by
  rw [s.encodeStart_freq, s.encodeStart_nsym, ← BitVec.ofNat_toNat 64 s.srcLen]
  exact s.encodeStart_eq_counted

theorem State.encodeStart_mem (s : State) : s.encodeStart.mem = s.mem :=
  (congrArg State.mem s.encodeStart_eq :)

theorem State.encodeStart_srcWindow (s : State) : s.encodeStart.srcWindow = s.srcWindow :=
  (congrArg State.srcWindow s.encodeStart_eq :)

theorem State.encodeStart_dstWindow (s : State) : s.encodeStart.dstWindow = s.dstWindow :=
  (congrArg State.dstWindow s.encodeStart_eq :)

theorem State.encodeStart_srcBytes (s : State) : s.encodeStart.srcBytes = s.srcBytes :=
  (congrArg State.srcBytes s.encodeStart_eq :)

theorem State.toNat_encodeStart_origLen (s : State) : s.encodeStart.origLen.toNat = s.srcLen.toNat := by
  rw [s.encodeStart_eq]
  exact BitVec.toNat_setWidth_of_le (by decide)

theorem State.encodeStart_matches (s : State) : histogram s.encodeStart.srcBytes = s.encodeStart.freq := by
  rw [s.encodeStart_srcBytes, s.encodeStart_freq]

theorem State.toNat_encodeStart_nsym (s : State) :
    s.encodeStart.nsym.toNat = (present s.encodeStart.freq).length := by
  rw [s.encodeStart_nsym, s.encodeStart_freq]
  exact toNat_ofNat_length_present _

/-- R191: without a symbol the old tree, codes and totals stay. -/
theorem State.encodeStart_of_empty_keeps (s : State) (h : s.encodeStart.nsym = 0) :
    s.encodeStart.arena = s.arena ∧ s.encodeStart.root = s.root ∧ s.encodeStart.codeLen = s.codeLen ∧
      s.encodeStart.codeBits = s.codeBits ∧ s.encodeStart.totalBits = s.totalBits ∧
      s.encodeStart.finalBits = s.finalBits := by
  rw [State.encodeStart_of_empty h]
  exact ⟨rfl, rfl, rfl, rfl, rfl, rfl⟩

/-! ## Its promises (R45) and its codes (R191) -/

theorem State.encodeStart_truthful (s : State) : s.encodeStart.FlagsTruthful := by
  have hcounted : s.counted.FlagsTruthful := by
    have h := s.counted_truthful s.srcBytes (s.length_srcBytes ▸ s.srcLen.isLt)
    rwa [s.length_srcBytes] at h
  unfold State.encodeStart
  split_ifs with hnsym
  · exact hcounted
  · exact State.loadCodes_truthful _ (State.treeBuilt_truthful _ hcounted rfl hnsym) rfl

theorem State.encodeStart_tableValid (s : State) : s.encodeStart.tableValid = true :=
  (congrArg State.tableValid s.encodeStart_eq :)

/-- Codes are valid, or the table is empty (R181). -/
theorem State.encodeStart_encodable (s : State) : s.encodeStart.codesValid = true ∨
    (s.encodeStart.tableValid = true ∧ s.encodeStart.nsym = 0) := by
  have hcodes : s.encodeStart.codesValid = decide (s.encodeStart.nsym ≠ 0) :=
    (congrArg State.codesValid s.encodeStart_eq :)
  by_cases hnsym : s.encodeStart.nsym = 0
  · exact .inr ⟨s.encodeStart_tableValid, hnsym⟩
  · exact .inl (hcodes.trans (decide_eq_true hnsym))

section Symbol
variable (s : State) (h : s.encodeStart.nsym ≠ 0)
include h

theorem State.encodeStart_tree :
    (s.encodeStart.arena, s.encodeStart.root) = buildArena s.encodeStart.freq s.encodeStart.nsym s.draws := by
  rw [s.encodeStart_freq, s.encodeStart_nsym, State.encodeStart_of_symbol h]
  rfl

theorem State.encodeStart_codes :
    ({ len := s.encodeStart.codeLen, bits := s.encodeStart.codeBits } : CodeTable) =
      codesFor s.encodeStart.freq s.encodeStart.nsym s.draws := by
  rw [s.encodeStart_freq, s.encodeStart_nsym, State.encodeStart_of_symbol h]
  rfl

end Symbol

/-! ## The stream's size (R183) -/

theorem State.encodeStart_emitTotalBits (s : State) : s.encodeStart.emitTotalBits = s.encodedBits := by
  have hn := s.encodeStart_nsym
  by_cases hnsym : s.encodeStart.nsym = 0
  · calc s.encodeStart.emitTotalBits
      _ = 0 := if_pos (s.encodeStart.emptyTable_iff.mpr ⟨s.encodeStart_tableValid, hnsym⟩)
      _ = s.encodedBits := (if_pos (hn.symm.trans hnsym)).symm
  · calc s.encodeStart.emitTotalBits
      _ = codedBits s.encodeStart.freq s.encodeStart.codeLen :=
        (s.encodeStart_truthful.codedBits_eq_emitTotalBits s.encodeStart_encodable).symm
      _ = codedBits s.encodeStart.freq (codesFor s.encodeStart.freq s.encodeStart.nsym s.draws).len :=
        congrArg (codedBits _ ·.len) (s.encodeStart_codes hnsym)
      _ = s.encodedBits := by
        rw [s.encodeStart_freq, hn]
        exact (if_neg (hn ▸ hnsym)).symm

theorem State.encodeStart_emitSize (s : State) : s.encodeStart.emitSize = s.encodedSize := by
  rw [State.emitSize, s.encodeStart_emitTotalBits, s.encodeStart_nsym]
  rfl

/-! ## The checks (R190; 60_exceptions.md R235) -/

theorem State.encodeStart_emitRefusal {s : State} (hsrc : s.srcAddr.toNat + s.srcLen.toNat ≤ 2 ^ 32) :
    s.encodeStart.emitRefusal =
      if ¬ s.dstAddr.toNat + s.dstCap.toNat ≤ 2 ^ 32 then some .addressRange
      else if s.srcWindow.overlaps s.dstWindow = true then some .overlap
      else if s.dstCap.toNat < s.encodedSize then some .outputOverflow
      else none := by
  have hsrcAddr : s.encodeStart.srcAddr = s.srcAddr := congrArg Window.base s.encodeStart_srcWindow
  have hsrcLen : s.encodeStart.srcLen = s.srcLen := congrArg Window.len s.encodeStart_srcWindow
  have hdstAddr : s.encodeStart.dstAddr = s.dstAddr := congrArg Window.base s.encodeStart_dstWindow
  have hdstCap : s.encodeStart.dstCap = s.dstCap := congrArg Window.len s.encodeStart_dstWindow
  rw [State.emitRefusal_of_encodable s.encodeStart_encodable, s.encodeStart_srcWindow, s.encodeStart_dstWindow,
    s.encodeStart_emitSize, hsrcAddr, hsrcLen, hdstAddr, hdstCap]
  simp only [hsrc, true_and]

/-! ## How it ends -/

/-- q with the completion fields and RESULT_LEN of t, which is all that an early error writes (R231, R233). -/
def State.failedAs (t q : State) : State := { q with
  resultLen := t.resultLen
  inflight := t.inflight, done := t.done, err := t.err, errCode := t.errCode, doneIp := t.doneIp, draws := t.draws }

/-- q with all that an EMIT_STREAM which ended as t writes (R187). -/
def State.endedAs (t q : State) : State := { State.failedAs t q with
  mem := t.mem, totalBits := t.totalBits, finalBits := t.finalBits }

section Exec
variable {s : State} (hraced : s.raced = false)
include hraced

/-- R192: a source out of range fails in COUNT. -/
theorem exec_encode_of_past (hsrc : s.srcWindow.inRange = false) :
    exec .encode s = .next ({ s with resultLen := 0 }.takeError .addressRange) := by
  have hcount : runCount s = .raise .addressRange s := if_neg (Bool.eq_false_iff.mp hsrc)
  rw [exec_unraced .encode s hraced, runOf, runEncode, hcount]
  rfl

variable (hsrc : s.srcWindow.inRange = true)
include hsrc

theorem exec_encode_of_refused {e : ErrCode} (h : s.encodeStart.emitRefusal = some e) :
    exec .encode s = .next ({ s.encodeStart with resultLen := 0 }.takeError e) := by
  rw [exec_unraced .encode s hraced, runOf, runEncode_of_inRange hsrc, runEmitStream_of_refused h, Run.complete_raise]

theorem exec_encode_of_accepted (h : s.encodeStart.emitRefusal = none) :
    exec .encode s = .next s.encodeStart.emitted.completeOk := by
  rw [exec_unraced .encode s hraced, runOf, runEncode_of_inRange hsrc,
    runEmitStream_of_match h s.encodeStart_matches, Run.complete_ok]

end Exec
end Sys2Proof.Machine

namespace Sys2Proof.Proofs
open Sys2Proof.Machine

/-- Settles O50: ENCODE is EMIT_STREAM of a state with truthful flags that holds the source's histogram, so it writes
the stream; the fields it does not write are those of s. -/
theorem encodeCompletes : Obligations.EncodeCompletes := by
  intro s hraced hwf hsrc hdst hapart hfits
  have hsize := s.encodeStart_emitSize
  have hdstAddr : s.encodeStart.dstAddr = s.dstAddr := congrArg Window.base s.encodeStart_dstWindow
  have hdstCap : s.encodeStart.dstCap = s.dstCap := congrArg Window.len s.encodeStart_dstWindow
  have hmem := s.encodeStart_mem
  have htruthful := s.encodeStart_truthful
  have hcodes := s.encodeStart_encodable
  have hready : s.encodeStart.emitRefusal = none := by
    rw [State.encodeStart_emitRefusal hsrc, if_neg (not_not.mpr hdst), if_neg (by simp [hapart]),
      if_neg (not_lt.mpr hfits)]
  refine ⟨_, exec_encode_of_accepted hraced ((Window.inRange_iff _).mpr hsrc) hready, s.encodeStart_freq,
    s.toNat_encodeStart_nsym, ?size, ?stream, fun a ha => ?outside,
    fun hnsym => ⟨s.encodeStart_tree hnsym, s.encodeStart_codes hnsym⟩, fun hnsym => ?empty,
    (State.toNat_emitted_totalBits _).trans s.encodeStart_emitTotalBits, htruthful.emitted_finalBits hcodes, ?frame⟩
  case size => exact (State.toNat_emitted_resultLen (by rw [hsize, hdstCap]; exact hfits)).trans hsize
  case stream =>
    have hstream := htruthful.bytes_emitMem hcodes (hmem ▸ hwf) (by rw [hsize, hdstAddr]; omega) s.encodeStart_matches
    rw [hdstAddr, hsize, s.toNat_encodeStart_origLen, ← State.toNat_emitted_finalBits, State.emitBits,
      s.encodeStart_srcBytes] at hstream
    exact hstream
  case outside =>
    rw [← hmem]
    exact s.encodeStart.read_emitMem_outside a (by rwa [hdstAddr, hsize])
  case empty =>
    obtain ⟨harena, hroot, hlen, hbits, -⟩ := s.encodeStart_of_empty_keeps hnsym
    exact ⟨harena, hroot, hlen, hbits⟩
  case frame => exact congrArg (State.endedAs s.encodeStart.emitted.completeOk) s.encodeStart_eq

/-- Settles O51: a source out of range fails in COUNT; after COUNT the checks are EMIT_STREAM's, and a refusal leaves
what the steps before it left. -/
theorem encodeErrorKeepsSteps : Obligations.EncodeErrorKeepsSteps := by
  intro s hraced
  have hrange := Window.inRange_iff s.srcWindow
  have fails {e : ErrCode} (hsrc : s.srcAddr.toNat + s.srcLen.toNat ≤ 2 ^ 32) :=
    exec_encode_of_refused (e := e) hraced (hrange.mpr hsrc)
  refine ⟨fun hpast => ?past, fun hsrc hdst => ⟨_, fails hsrc ?range, rfl, rfl, rfl, rfl, rfl⟩,
    fun hsrc hdst hover => ⟨_, fails hsrc ?overlap, rfl, rfl, rfl, rfl, rfl⟩,
    fun hsrc hdst hapart hshort => ⟨_, fails hsrc ?overflow, rfl, rfl, rfl, rfl, rfl⟩, fun hsrc t h herr => ?kept⟩
  case past =>
    exact exec_encode_of_past hraced (Bool.eq_false_iff.mpr fun h => absurd (hrange.mp h) (not_le.mpr hpast))
  case range => rw [State.encodeStart_emitRefusal hsrc, if_pos (not_le.mpr hdst)]
  case overlap => rw [State.encodeStart_emitRefusal hsrc, if_neg (not_not.mpr hdst), if_pos hover]
  case overflow =>
    rw [State.encodeStart_emitRefusal hsrc, if_neg (not_not.mpr hdst), if_neg (by simp [hapart]), if_pos hshort]
  case kept =>
    cases hcheck : s.encodeStart.emitRefusal with
    | none =>
      cases (exec_encode_of_accepted hraced (hrange.mpr hsrc) hcheck).symm.trans h
      exact absurd rfl herr
    | some e =>
      cases (fails hsrc hcheck).symm.trans h
      exact ⟨s.encodeStart_freq, s.toNat_encodeStart_nsym, s.encodeStart_truthful, s.encodeStart_of_empty_keeps,
        congrArg (State.failedAs (({ s.encodeStart with resultLen := 0 } : State).takeError e)) s.encodeStart_eq⟩

end Sys2Proof.Proofs
end

section
/-! PROOFS. The entry loop runs through sound entries to a table that holds exactly what they list; after it each
check of the header raises when its own condition holds (45_decoder.md R200, R203 to R205; 60_exceptions.md R235). -/

namespace Sys2Proof.Machine

/-! ## Sound entries (R204) -/

/-- What the entry loop starts from. -/
def noEntries : Entries := { freq := tabulate fun _ => 0, sum := 0 }

/-- The table and the sum after n more entries, the first at offset 12 of a. -/
def addEntries (m : Memory) : Nat → Nat → Entries → Entries
  | 0, _, e => e
  | n + 1, a, e => addEntries m n (a + 5) { freq := addEntry m a e.freq, sum := e.sum + entryFreq m a 0 }

theorem parseEntries_add (m : Memory) (n k a : Nat) (e : Entries) (h : EntriesOk m a n e.freq) :
    parseEntries m (n + k) (a + 12) e = parseEntries m k (a + 5 * n + 12) (addEntries m n a e) := by
  induction n generalizing a e with
  | zero => rw [Nat.zero_add]; rfl
  | succ n ih =>
    obtain ⟨hpos, hfresh, hrest⟩ := (entriesOk_succ m a n e.freq).mp h
    rw [Nat.add_right_comm, parseEntries_succ, if_neg hpos, if_neg (not_not.mpr hfresh), ih _ _ hrest,
      show a + 5 + 5 * n = a + 5 * (n + 1) by omega]
    rfl

theorem parseEntries_of_entriesOk {m : Memory} {n a : Nat} {e : Entries} (h : EntriesOk m a n e.freq) :
    parseEntries m n (a + 12) e = .ok (addEntries m n a e) :=
  parseEntries_add m n 0 a e h

theorem sum_addEntries (m : Memory) (n a : Nat) (e : Entries) :
    (addEntries m n a e).sum = e.sum + ((List.range n).map (entryFreq m a)).sum := by
  induction n generalizing a e with
  | zero => rfl
  | succ n ih => rw [addEntries, ih, sum_entryFreq_succ, Nat.add_assoc]

theorem tget_addEntries_of_unlisted (m : Memory) (n a : Nat) (e : Entries) (b : Byte)
    (h : ∀ i < n, entrySym m a i ≠ b) : tget (addEntries m n a e).freq b = tget e.freq b := by
  induction n generalizing a e with
  | zero => rfl
  | succ n ih =>
    rw [addEntries, ih _ _ fun i hi => entrySym_succ m a i ▸ h (i + 1) (Nat.succ_lt_succ hi), addEntry, tget_tset,
      if_neg (h 0 n.succ_pos)]

theorem tget_addEntries_of_listed (m : Memory) (n a : Nat) (e : Entries)
    (hdistinct : ∀ i < n, ∀ j < n, entrySym m a i = entrySym m a j → i = j) (i : Nat) (hi : i < n) :
    tget (addEntries m n a e).freq (entrySym m a i) = BitVec.ofNat 32 (entryFreq m a i) := by
  induction n generalizing a e i with
  | zero => exact absurd hi (Nat.not_lt_zero i)
  | succ n ih =>
    have hlater : ∀ j < n, ∀ k < n, entrySym m (a + 5) j = entrySym m (a + 5) k → j = k := by
      intro j hj k hk hjk
      rw [entrySym_succ, entrySym_succ] at hjk
      exact Nat.succ_injective (hdistinct _ (Nat.succ_lt_succ hj) _ (Nat.succ_lt_succ hk) hjk)
    rw [addEntries]
    cases i with
    | zero =>
      rw [tget_addEntries_of_unlisted, addEntry, tget_tset, if_pos rfl]
      intro j hj hj0
      rw [entrySym_succ] at hj0
      exact absurd (hdistinct _ (Nat.succ_lt_succ hj) 0 n.succ_pos hj0) j.succ_ne_zero
    | succ i => rw [← entrySym_succ, ← entryFreq_succ]; exact ih _ _ hlater i (Nat.lt_of_succ_lt_succ hi)

theorem entriesOk_noEntries {m : Memory} {a n : Nat} (hpos : ∀ i < n, entryFreq m a i ≠ 0)
    (hdistinct : ∀ i < n, ∀ j < n, entrySym m a i = entrySym m a j → i = j) : EntriesOk m a n noEntries.freq :=
  ⟨hpos, hdistinct, fun _ _ => tget_tabulate ..⟩

/-! ## The checks, in order -/

/-- What a header with sound entries says. -/
def headerAt (m : Memory) (a : Nat) : Header where
  freq := (addEntries m (m.beRead a 4) a noEntries).freq
  nsym := m.beRead a 4
  orig := m.beRead (a + 4) 8
  fbb := (m.read (a + 12 + 5 * m.beRead a 4)).toNat

theorem parseHeader_of_fields {m : Memory} {a len : Nat} (hfixed : 4 ≤ len) (hcount : m.beRead a 4 ≤ 256)
    (hfit : headerLen (m.beRead a 4) ≤ len) : parseHeader m a len = parseBody m a len (m.beRead a 4) := by
  simp only [parseHeader, if_neg (not_lt.mpr hfixed), if_neg (not_lt.mpr hcount), if_neg (not_lt.mpr hfit)]

theorem parseBody_of_entries_error {m : Memory} {a len n : Nat} {err : ErrCode}
    (h : parseEntries m n (a + 12) noEntries = .error err) : parseBody m a len n = .error err := by
  rw [noEntries] at h
  simp only [parseBody, h]

/-- With sound entries the sum, finalByteBits and the padding decide. -/
theorem parseBody_of_entriesOk {m : Memory} {a : Nat} (len : Nat) (h : EntriesOk m a (m.beRead a 4) noEntries.freq) :
    parseBody m a len (m.beRead a 4) =
      if ((List.range (m.beRead a 4)).map (entryFreq m a)).sum ≠ m.beRead (a + 4) 8 then .error .corruptSumMismatch
      else if finalByteBitsLegal (len - headerLen (m.beRead a 4)) (headerAt m a).fbb = false then
        .error .corruptFinalBits
      else if paddingBad m a len (len - headerLen (m.beRead a 4)) (headerAt m a).fbb = true then .error .corruptPadding
      else .ok (headerAt m a) := by
  have hentries := parseEntries_of_entriesOk h
  have hsum := sum_addEntries m (m.beRead a 4) a noEntries
  rw [show noEntries.sum = 0 from rfl, Nat.zero_add] at hsum
  rw [← hsum]
  rw [noEntries] at hentries
  simp only [parseBody, hentries, Bool.not_eq_true']
  rfl

/-- An entry with frequency 0 after sound ones. -/
theorem parseEntries_of_zero {m : Memory} {a n i : Nat} (hi : i < n) (h : EntriesOk m a i noEntries.freq)
    (hzero : entryFreq m a i = 0) : parseEntries m n (a + 12) noEntries = .error .corruptZeroFrequency := by
  obtain ⟨k, rfl⟩ := Nat.exists_eq_add_of_lt hi
  have hfreq : entryFreq m (a + 5 * i) 0 = entryFreq m a i := by unfold entryFreq; congr 1; omega
  rw [Nat.add_assoc, parseEntries_add _ _ _ _ _ h, parseEntries_succ, if_pos (hfreq.trans hzero)]

/-- An entry that repeats a symbol of the sound ones before it. -/
theorem parseEntries_of_repeated {m : Memory} {a n i j : Nat} (hi : i < n) (h : EntriesOk m a i noEntries.freq)
    (hpos : entryFreq m a i ≠ 0) (hj : j < i) (hsym : entrySym m a j = entrySym m a i) :
    parseEntries m n (a + 12) noEntries = .error .corruptDuplicateSymbol := by
  obtain ⟨k, rfl⟩ := Nat.exists_eq_add_of_lt hi
  have hfreq : entryFreq m (a + 5 * i) 0 = entryFreq m a i := by unfold entryFreq; congr 1; omega
  have hsym' : entrySym m (a + 5 * i) 0 = entrySym m a j := by rw [hsym]; unfold entrySym; congr 1; omega
  have hlisted : tget (addEntries m i a noEntries).freq (entrySym m (a + 5 * i) 0) ≠ 0 := by
    rw [hsym', tget_addEntries_of_listed _ _ _ _ h.distinct j hj, Ne, ofNat_entryFreq_eq_zero]
    exact h.positive j hj
  rw [Nat.add_assoc, parseEntries_add _ _ _ _ _ h, parseEntries_succ, if_neg (hfreq.trans_ne hpos),
    if_pos hlisted]

/-- R94: 0 without a payload, 1 to 8 with one. -/
theorem finalByteBitsLegal_eq_false_iff (p fbb : Nat) :
    finalByteBitsLegal p fbb = false ↔ (p = 0 ∧ fbb ≠ 0) ∨ (0 < p ∧ (fbb = 0 ∨ 8 < fbb)) := by
  unfold finalByteBitsLegal
  split_ifs with hp <;> rw [decide_eq_false_iff_not] <;> omega

/-! ## A well-formed header -/

theorem HeaderWellFormed.entriesOk {m : Memory} {a len : Nat} (h : HeaderWellFormed m a len) :
    EntriesOk m a (m.beRead a 4) noEntries.freq :=
  entriesOk_noEntries h.frequencies_positive h.symbols_distinct

theorem HeaderWellFormed.parseHeader_eq {m : Memory} {a len : Nat} (h : HeaderWellFormed m a len) :
    parseHeader m a len = .ok (headerAt m a) := by
  have hlegal : finalByteBitsLegal (len - headerLen (m.beRead a 4)) (headerAt m a).fbb = true := h.final_bits
  have hpad : paddingBad m a len (len - headerLen (m.beRead a 4)) (headerAt m a).fbb = false :=
    (paddingBad_eq_false_iff ..).mpr fun hp => h.padding_zero (by omega)
  rw [parseHeader_of_fields h.fixed_fields h.symbol_count h.entries_fit, parseBody_of_entriesOk len h.entriesOk,
    if_neg (not_not.mpr h.sum_is_length), if_neg (ne_false_of_eq_true hlegal), hpad, if_neg Bool.false_ne_true]

theorem toNat_tget_headerAt {m : Memory} {a len : Nat} (h : HeaderWellFormed m a len) (i : Nat)
    (hi : i < m.beRead a 4) : (tget (headerAt m a).freq (entrySym m a i)).toNat = entryFreq m a i := by
  have hlt : entryFreq m a i < 2 ^ 32 := m.beRead_lt (a + 13 + 5 * i) 4
  rw [headerAt, tget_addEntries_of_listed _ _ _ _ h.symbols_distinct i hi, BitVec.toNat_ofNat, Nat.mod_eq_of_lt hlt]

theorem tget_headerAt_of_unlisted (m : Memory) (a : Nat) (b : Byte) (h : ∀ i < m.beRead a 4, entrySym m a i ≠ b) :
    tget (headerAt m a).freq b = 0 :=
  (tget_addEntries_of_unlisted _ _ _ _ b h).trans (tget_tabulate ..)

/-- R203 to R205: a window that holds no well-formed header raises one of the header's errors. -/
theorem parseHeader_of_not_wellFormed {m : Memory} {a len : Nat} (h : ¬ HeaderWellFormed m a len) :
    ∃ e ∈ headerErrs, parseHeader m a len = .error e := by
  cases hp : parseHeader m a len with
  | error e => exact ⟨e, parseHeader_error _ _ _ e hp, rfl⟩
  | ok hd => exact absurd ((parseHeader_accepts_iff_wellFormed m a len).mp ⟨hd, hp⟩) h

/-! ## PARSE_HEADER -/

/-- What an accepted header says fits the registers it is loaded into (R200, R206). -/
theorem State.loadHeader_toNat {s : State} {h : Header}
    (hp : parseHeader s.mem s.srcAddr.toNat s.srcLen.toNat = .ok h) :
    (s.loadHeader h).nsym.toNat = h.nsym ∧ (s.loadHeader h).origLen.toNat = h.orig ∧
      (s.loadHeader h).payAddr.toNat = (s.srcAddr.toNat + 13 + 5 * h.nsym) % 2 ^ 32 ∧
      (s.loadHeader h).payLen.toNat = s.srcLen.toNat - (13 + 5 * h.nsym) ∧
      (s.loadHeader h).payFbb.toNat = h.fbb := by
  obtain ⟨hpres, htotal, -, hfbb⟩ := parseHeader_ok _ _ _ _ hp
  have hfbb8 := finalByteBitsLegal_le _ _ hfbb
  have hn := length_present_le h.freq
  have horig := totalCount_lt h.freq
  have hlen := s.srcLen.isLt
  simp only [State.loadHeader_nsym, State.loadHeader_origLen, State.loadHeader_payAddr, State.loadHeader_payLen,
    State.loadHeader_payFbb, BitVec.toNat_ofNat, headerLen]
  omega

section Exec
variable {s : State} (hsrc : s.srcAddr.toNat + s.srcLen.toNat ≤ 2 ^ 32)
include hsrc

theorem runParseHeader_of_ok {h : Header} (hp : parseHeader s.mem s.srcAddr.toNat s.srcLen.toNat = .ok h) :
    runParseHeader s = .ok (s.loadHeader h) := by
  have hrange : s.srcWindow.inRange = true := (Window.inRange_iff _).mpr hsrc
  simp only [runParseHeader, hrange, hp, Bool.not_true, Bool.false_eq_true, if_false]

theorem runParseHeader_of_error {e : ErrCode} (hp : parseHeader s.mem s.srcAddr.toNat s.srcLen.toNat = .error e) :
    runParseHeader s = .raise e s.corruptHeader := by
  have hrange : s.srcWindow.inRange = true := (Window.inRange_iff _).mpr hsrc
  simp only [runParseHeader, hrange, hp, Bool.not_true, Bool.false_eq_true, if_false]

end Exec
end Sys2Proof.Machine

namespace Sys2Proof.Proofs
open Sys2Proof.Machine

/-- Settles O45: what a header says depends on the stream's bytes alone. -/
theorem parseHeaderReadsInsideWindow : Obligations.ParseHeaderReadsInsideWindow := parseHeader_congr

/-- Settles O44: the first bad entry stops the loop, and after sound entries the remaining checks are one `if` each. -/
theorem headerCheckOrder : Obligations.HeaderCheckOrder := by
  intro m a len
  refine ⟨fun hshort => ?short, fun hfixed hmany => ?many, fun hfixed hcount hcut => ?cut,
    fun hfixed hcount hfit i hi hpos hdistinct => ?entry, fun hfixed hcount hfit hpos hdistinct => ?tail⟩
  case short => exact if_pos hshort
  case many => simp only [parseHeader, if_neg (not_lt.mpr hfixed), if_pos hmany]
  case cut =>
    have hcut' : len < headerLen (m.beRead a 4) := hcut
    simp only [parseHeader, if_neg (not_lt.mpr hfixed), if_neg (not_lt.mpr hcount), if_pos hcut']
  case entry =>
    have hprefix := entriesOk_noEntries hpos fun j hj k hk => hdistinct j hj k hk
    rw [parseHeader_of_fields hfixed hcount hfit]
    refine ⟨fun hzero => parseBody_of_entries_error (parseEntries_of_zero hi hprefix hzero), ?_⟩
    rintro hne ⟨j, hj, hsym⟩
    exact parseBody_of_entries_error (parseEntries_of_repeated hi hprefix hne hj hsym)
  case tail =>
    rw [parseHeader_of_fields hfixed hcount hfit, parseBody_of_entriesOk len (entriesOk_noEntries hpos hdistinct)]
    simp only [← finalByteBitsLegal_eq_false_iff]
    refine ⟨fun hsum => if_pos hsum, fun hsum hbad => ?finalBits, fun hsum hlegal hp hone => ?padding⟩
    case finalBits => exact (if_neg (not_not.mpr hsum)).trans (if_pos hbad)
    case padding =>
      have hpad : paddingBad m a len (len - headerLen (m.beRead a 4)) (headerAt m a).fbb = true := by
        rw [← Bool.not_eq_false, paddingBad_eq_false_iff]
        obtain ⟨k, hk, hbit⟩ := hone
        exact fun hzero => absurd (hzero hp k hk) (ne_false_of_eq_true hbit)
      exact (if_neg (not_not.mpr hsum)).trans ((if_neg hlegal).trans (if_pos hpad))

/-- Settles O41: a well-formed header is accepted as `headerAt`, whose table holds what the entries list. -/
theorem parseHeaderCompletes : Obligations.ParseHeaderCompletes := by
  intro s hraced hsrc hwf
  have hp := hwf.parseHeader_eq
  obtain ⟨hnsym, horig, haddr, hlen, hfbb⟩ := State.loadHeader_toNat hp
  have hexec : exec .parseHeader s = .next (s.loadHeader (headerAt s.mem s.srcAddr.toNat)).completeOk := by
    rw [exec_unraced .parseHeader s hraced, runOf, runParseHeader_of_ok hsrc hp, Run.complete_ok]
  exact ⟨_, hexec, toNat_tget_headerAt hwf, tget_headerAt_of_unlisted _ _, hnsym, horig, haddr, hlen, hfbb, rfl⟩

/-- Settles O43: the checks end with one of the header's errors, each in the CORRUPT_* class. -/
theorem parseHeaderCorrupt : Obligations.ParseHeaderCorrupt := by
  intro s hraced hsrc hwf
  obtain ⟨e, he, hp⟩ := parseHeader_of_not_wellFormed hwf
  have hclass : ∀ e ∈ headerErrs, e.isCorrupt = true := by decide
  have hexec : exec .parseHeader s = .next (s.corruptHeader.takeError e) := by
    rw [exec_unraced .parseHeader s hraced, runOf, runParseHeader_of_error hsrc hp, Run.complete_raise]
  exact ⟨_, hexec, hclass e he, rfl⟩

end Sys2Proof.Proofs
end

section
/-! PROOFS. The serialised header, found in memory, parses back (30_encoding.md R90; 44_encoder.md R185; 45_decoder.md
R206): its entries list each present symbol once, with its frequency. -/

namespace Sys2Proof.Machine

/-! ## Bytes that stand in memory -/

/-- The bytes bs stand in memory from address a on. -/
def Memory.Holds (m : Memory) (a : Nat) (bs : List Byte) : Prop := m.bytes a bs.length = bs

theorem Memory.holds_append (m : Memory) (a : Nat) (bs cs : List Byte) :
    m.Holds a (bs ++ cs) ↔ m.Holds a bs ∧ m.Holds (a + bs.length) cs := by
  rw [Memory.Holds, List.length_append, Memory.bytes_add]
  exact ⟨fun h => List.append_inj h (m.length_bytes a _), fun ⟨hb, hc⟩ => congrArg₂ (· ++ ·) hb hc⟩

theorem Memory.holds_singleton (m : Memory) (a : Nat) (b : Byte) : m.Holds a [b] ↔ m.read a = b := by
  simp [Memory.Holds, Memory.bytes]

theorem Memory.holds_cons (m : Memory) (a : Nat) (b : Byte) (bs : List Byte) :
    m.Holds a (b :: bs) ↔ m.read a = b ∧ m.Holds (a + 1) bs := by
  rw [← List.singleton_append, Memory.holds_append, Memory.holds_singleton, List.length_singleton]

theorem Memory.Holds.beRead_eq {m : Memory} {a n v : Nat} (h : m.Holds a (beBytes n v)) (hv : v < 256 ^ n) :
    m.beRead a n = v := by
  rw [Memory.Holds, length_beBytes] at h
  exact Memory.beRead_of_bytes h hv

theorem Memory.Holds.read_getElem {m : Memory} {a i : Nat} {bs : List Byte} (h : m.Holds a bs) (hi : i < bs.length) :
    m.read (a + i) = bs[i] := by
  have hi' : i < (m.bytes a bs.length).length := (m.length_bytes a _).symm ▸ hi
  exact (m.getElem_bytes a _ i hi').symm.trans (List.getElem_of_eq h hi')

theorem Memory.Holds.read_last {m : Memory} {a : Nat} {bs : List Byte} (h : m.Holds a bs) (hne : bs ≠ []) :
    m.read (a + bs.length - 1) = bs.getLastD 0 := by
  obtain ⟨cs, c, rfl⟩ := (List.eq_nil_or_concat' bs).resolve_left hne
  rw [Memory.holds_append, Memory.holds_singleton] at h
  simpa using h.2

theorem Memory.holds_writeBytes (m : Memory) (a : Nat) (bs : List Byte) (h : m.wf = true)
    (hr : a + bs.length ≤ 2 ^ 32) : (m.writeBytes a bs).Holds a bs := m.bytes_writeBytes a bs h hr

/-! ## The entries (R185) -/

theorem Memory.Holds.entry {m : Memory} {a : Nat} {freq : Vector Word 256} {bs : List Byte}
    (h : m.Holds (a + 12) (bs.flatMap fun b => b :: beBytes 4 (tget freq b).toNat)) (i : Nat) (hi : i < bs.length) :
    entrySym m a i = bs[i] ∧ entryFreq m a i = (tget freq bs[i]).toNat := by
  induction bs generalizing a i with
  | nil => exact absurd hi (Nat.not_lt_zero i)
  | cons b bs ih =>
    rw [List.flatMap_cons, Memory.holds_append, Memory.holds_cons, List.length_cons, length_beBytes] at h
    obtain ⟨⟨hsym, hfreq⟩, hrest⟩ := h
    cases i with
    | zero => exact ⟨hsym, hfreq.beRead_eq (tget freq b).isLt⟩
    | succ i =>
      rw [← entrySym_succ, ← entryFreq_succ]
      exact ih (by rwa [show a + 5 + 12 = a + 12 + (4 + 1) by omega]) i (Nat.lt_of_succ_lt_succ hi)

/-- The fields of a serialised header and the payload after it. -/
theorem Memory.Holds.header {m : Memory} {a n orig fbb : Nat} {freq : Vector Word 256} {payload : List Byte}
    (h : m.Holds a (headerBytes freq n orig fbb ++ payload)) :
    m.Holds a (beBytes 4 n) ∧ m.Holds (a + 4) (beBytes 8 orig) ∧ m.Holds (a + 12) (entryBytes freq) ∧
      m.read (a + 12 + 5 * (present freq).length) = BitVec.ofNat 8 fbb ∧
      m.Holds (a + (13 + 5 * (present freq).length)) payload := by
  rw [headerBytes, Memory.holds_append, Memory.holds_append, Memory.holds_singleton, List.length_append,
    length_headerStart, headerStart, Memory.holds_append, Memory.holds_append, List.length_append, length_beBytes,
    length_beBytes, List.length_singleton] at h
  obtain ⟨⟨⟨⟨hnsym, horig⟩, hentries⟩, hfbb⟩, hpayload⟩ := h
  refine ⟨hnsym, horig, hentries, by rwa [Nat.add_assoc], ?_⟩
  rwa [show 13 + 5 * (present freq).length = 12 + 5 * (present freq).length + 1 by omega]

theorem length_headerBytes (freq : Vector Word 256) (n orig fbb : Nat) :
    (headerBytes freq n orig fbb).length = headerLen (present freq).length := by
  rw [headerBytes, List.length_append, length_headerStart, List.length_singleton, headerLen]
  omega

/-! ## The serialised header of a table -/

section Serialised
variable {m : Memory} {a fbb : Nat} {freq : Vector Word 256} {payload : List Byte}
  (h : m.Holds a (headerBytes freq (present freq).length (totalCount freq) fbb ++ payload))
include h

theorem Memory.Holds.beRead_nsym : m.beRead a 4 = (present freq).length := by
  obtain ⟨hnsym, -, -, -, -⟩ := h.header
  exact hnsym.beRead_eq (by have := length_present_le freq; omega)

theorem Memory.Holds.beRead_orig : m.beRead (a + 4) 8 = totalCount freq := by
  obtain ⟨-, horig, -, -, -⟩ := h.header
  exact horig.beRead_eq (totalCount_lt freq)

theorem Memory.Holds.entry_present (i : Nat) (hi : i < (present freq).length) :
    entrySym m a i = (present freq)[i] ∧ entryFreq m a i = (tget freq (present freq)[i]).toNat := by
  obtain ⟨-, -, hentries, -, -⟩ := h.header
  exact hentries.entry i hi

theorem Memory.Holds.sum_entryFreq :
    ((List.range (present freq).length).map (entryFreq m a)).sum = totalCount freq := by
  have hfreqs : (List.range (present freq).length).map (entryFreq m a) =
      (present freq).map fun b => (tget freq b).toNat := by
    refine List.ext_getElem (by simp) fun i hi hi' => ?_
    rw [List.getElem_map, List.getElem_map, List.getElem_range]
    exact (h.entry_present i (by simpa using hi)).2
  rw [hfreqs, sum_map_present _ freq fun b hb => by rw [hb]; rfl, totalCount_eq_sum]

variable (hlegal : finalByteBitsLegal payload.length fbb = true)
include hlegal

theorem Memory.Holds.toNat_finalByteBits : (m.read (a + 12 + 5 * (present freq).length)).toNat = fbb := by
  obtain ⟨-, -, -, hfbb, -⟩ := h.header
  have := finalByteBitsLegal_le _ _ hlegal
  rw [hfbb, BitVec.toNat_ofNat, Nat.mod_eq_of_lt (by omega)]

variable (hpad : ∀ k < 8 - fbb, (payload.getLastD 0).getLsbD k = false)
include hpad

theorem Memory.Holds.headerWellFormed :
    HeaderWellFormed m a (headerLen (present freq).length + payload.length) := by
  have hn := h.beRead_nsym
  have hf := h.toNat_finalByteBits hlegal
  obtain ⟨-, -, -, -, hpayload⟩ := h.header
  constructor
  case fixed_fields => unfold headerLen; omega
  case symbol_count => exact hn.trans_le (length_present_le freq)
  case entries_fit => rw [hn]; exact Nat.le_add_right _ _
  case frequencies_positive =>
    rw [hn]
    intro i hi hzero
    have hpresent := (mem_present freq _).mp (List.getElem_mem hi)
    exact hpresent (BitVec.eq_of_toNat_eq ((h.entry_present i hi).2.symm.trans hzero))
  case symbols_distinct =>
    rw [hn]
    intro i hi j hj hij
    rw [(h.entry_present i hi).1, (h.entry_present j hj).1] at hij
    exact (nodup_present freq).getElem_inj_iff.mp hij
  case sum_is_length => rw [hn, h.beRead_orig, h.sum_entryFreq]
  case final_bits => rw [hn, hf, Nat.add_sub_cancel_left]; exact hlegal
  case padding_zero =>
    rw [hn, hf]
    intro hlt
    have hlast := hpayload.read_last (List.ne_nil_of_length_pos (by omega))
    rw [headerLen, ← Nat.add_assoc, hlast]
    exact hpad

/-- R206: the entries fill exactly the table they were written from. -/
theorem Memory.Holds.headerAt_freq : (headerAt m a).freq = freq := by
  have hwf := h.headerWellFormed hlegal hpad
  have hn := h.beRead_nsym
  refine table_ext _ _ fun b => ?_
  by_cases hb : b ∈ present freq
  · obtain ⟨i, hi, rfl⟩ := List.getElem_of_mem hb
    obtain ⟨hsym, hfreq⟩ := h.entry_present i hi
    have hlisted := toNat_tget_headerAt hwf i (hn ▸ hi)
    rw [hsym, hfreq] at hlisted
    exact BitVec.eq_of_toNat_eq hlisted
  · rw [tget_headerAt_of_unlisted m a b, not_not.mp (mt (mem_present freq b).mpr hb)]
    rw [hn]
    exact fun i hi hib => hb (hib ▸ (h.entry_present i hi).1 ▸ List.getElem_mem hi)

theorem Memory.Holds.parseHeader_eq :
    parseHeader m a (headerLen (present freq).length + payload.length) =
      .ok { freq := freq, nsym := (present freq).length, orig := totalCount freq, fbb := fbb } := by
  have hfields : headerAt m a =
      { freq := (headerAt m a).freq, nsym := m.beRead a 4, orig := m.beRead (a + 4) 8
        fbb := (m.read (a + 12 + 5 * m.beRead a 4)).toNat } := rfl
  rw [(h.headerWellFormed hlegal hpad).parseHeader_eq, hfields, h.headerAt_freq hlegal hpad, h.beRead_nsym,
    h.beRead_orig, h.toNat_finalByteBits hlegal]

end Serialised
end Sys2Proof.Machine

namespace Sys2Proof.Proofs
open Sys2Proof.Machine

/-- Settles O46: the stream stands in the memory it was written to, and a serialised header that stands in memory
parses back. -/
theorem headerParsesBack : Obligations.HeaderParsesBack := by
  intro m a fbb freq payload hwf hlegal hpad stream hroom
  have hlen : stream.length = headerLen (present freq).length + payload.length := by
    rw [List.length_append, length_headerBytes]
  rw [hlen]
  exact (m.holds_writeBytes a stream hwf hroom).parseHeader_eq hlegal hpad

end Sys2Proof.Proofs
end

section
/-! PROOFS. DECODE_PAYLOAD (45_decoder.md R210 to R218): the checks before any access as one value, and the output or
the first error of the walk, the bits left over and the histogram. -/

namespace Sys2Proof.Machine

/-! ## The walk (R215) -/

theorem walkSymbol_missing_child {arena : List Node} {i l r : NodeIdx} {w : DWord} {c : List Byte} (seed : Nat)
    (h : nodeIs arena i.toNat (.fork w c l r)) (bit : Bool) (hchild : (if bit then r else l) = nodeNone)
    (bits : List Bool) : walkSymbol arena seed i (bit :: bits) = .error .corruptMissingChild := by
  simp only [walkSymbol, nodeAt_of_nodeIs seed h, if_pos hchild]

/-- R216: the walk of a symbol fails at the end of the bits or at a missing child only. -/
theorem walkSymbol_error_cases (arena : List Node) (seed : Nat) (i : NodeIdx) (bits : List Bool) (e : ErrCode)
    (h : walkSymbol arena seed i bits = .error e) : e = .corruptEndOfStream ∨ e = .corruptMissingChild := by
  fun_induction walkSymbol arena seed i bits with
  | case1 => cases h
  | case2 => cases h; exact .inl rfl
  | case3 => cases h
  | case4 => cases h; exact .inr rfl
  | case5 _ _ _ _ _ _ _ _ _ _ ih => exact ih h

theorem walkSymbols_error_cases (arena : List Node) (seed : Nat) (root : NodeIdx) (n : Nat) (bits : List Bool)
    (e : ErrCode) (h : walkSymbols arena seed root n bits = .error e) :
    e = .corruptEndOfStream ∨ e = .corruptMissingChild := by
  fun_induction walkSymbols arena seed root n bits with
  | case1 => cases h
  | case2 _ _ _ hwalk => cases h; exact walkSymbol_error_cases _ _ _ _ _ hwalk
  | case3 _ _ _ _ _ _ hrec ih => cases h; exact ih hrec
  | case4 => cases h

/-! ## How the output is checked (R216, R217) -/

section Output
variable {s : State} {out : List Byte} {rest : List Bool} {e : ErrCode}

theorem State.decodeOutput_of_walk_error
    (h : walkSymbols s.arena s.draws s.root s.origLen.toNat s.payloadBits = .error e) : s.decodeOutput = .error e := by
  rw [State.decodeOutput, h]

theorem State.decodeOutput_of_trailing
    (h : walkSymbols s.arena s.draws s.root s.origLen.toNat s.payloadBits = .ok (out, rest)) (hrest : rest ≠ []) :
    s.decodeOutput = .error .corruptTrailingBits := by
  rw [State.decodeOutput, h]
  exact if_pos hrest

theorem State.decodeOutput_of_walk
    (h : walkSymbols s.arena s.draws s.root s.origLen.toNat s.payloadBits = .ok (out, [])) :
    s.decodeOutput = if histogram out = s.freq then .ok out else .error .corruptHistogram := by
  have htable : (!tableEq (histogram out) s.freq) = true ↔ ¬ histogram out = s.freq := by
    rw [Bool.not_eq_true', ← Bool.not_eq_true, tableEq_iff]
  simp only [State.decodeOutput, h, htable, ite_not, ne_eq, not_true_eq_false, if_false]

end Output

/-! ## The checks before any access (R210, R211; 60_exceptions.md R235) -/

/-- The error DECODE_PAYLOAD ends with before any access, if one applies. -/
def State.decodeRefusal (s : State) : Option ErrCode :=
  if !s.hdrValid || (decide (s.nsym ≠ 0) && !s.treeValid) then some .sequence
  else if !(s.payWindow.inRange && s.dstWindow.inRange) then some .addressRange
  else if s.payWindow.overlaps s.dstWindow then some .overlap
  else if s.dstCap.toNat < s.origLen.toNat then some .outputOverflow
  else none

/-- DECODE_PAYLOAD is refused, or ends as its output does. -/
theorem runDecodePayload_eq (s : State) : runDecodePayload s =
    match s.decodeRefusal with
    | some e => .raise e { s with resultLen := 0 }
    | none =>
      match s.decodeOutput with
      | .error e => .raise e { s with mem := s.scrambleDst, resultLen := 0 }
      | .ok out => .ok (s.decoded out) := by
  unfold runDecodePayload State.decodeRefusal
  split_ifs
  · rfl
  · rfl
  · rfl
  · rfl
  · cases s.decodeOutput <;> rfl

section Checks
variable {s : State} {e : ErrCode}

theorem runDecodePayload_of_refused (h : s.decodeRefusal = some e) :
    runDecodePayload s = .raise e { s with resultLen := 0 } := by
  rw [runDecodePayload_eq, h]

theorem runDecodePayload_of_corrupt (h : s.decodeRefusal = none) (hout : s.decodeOutput = .error e) :
    runDecodePayload s = .raise e { s with mem := s.scrambleDst, resultLen := 0 } := by
  rw [runDecodePayload_eq, h, hout]

theorem runDecodePayload_of_output {out : List Byte} (h : s.decodeRefusal = none) (hout : s.decodeOutput = .ok out) :
    runDecodePayload s = .ok (s.decoded out) := by
  rw [runDecodePayload_eq, h, hout]

variable (hhdr : s.hdrValid = true) (htree : s.nsym = 0 ∨ s.treeValid = true)
  (hpay : s.payAddr.toNat + s.payLen.toNat ≤ 2 ^ 32)
include hhdr htree hpay

/-- With a header, its tree and the payload window in range, the destination window decides. -/
theorem State.decodeRefusal_of_decodable : s.decodeRefusal =
    if ¬ s.dstAddr.toNat + s.dstCap.toNat ≤ 2 ^ 32 then some .addressRange
    else if s.payWindow.overlaps s.dstWindow = true then some .overlap
    else if s.dstCap.toNat < s.origLen.toNat then some .outputOverflow
    else none := by
  have hready : ¬ (!s.hdrValid || (decide (s.nsym ≠ 0) && !s.treeValid)) = true := by
    obtain h0 | ht := htree
    · simp [hhdr, h0]
    · simp [hhdr, ht]
  have hpay' : s.payWindow.inRange = true := (Window.inRange_iff _).mpr hpay
  have hdst : s.dstWindow.inRange = true ↔ s.dstAddr.toNat + s.dstCap.toNat ≤ 2 ^ 32 := Window.inRange_iff _
  rw [State.decodeRefusal, if_neg hready]
  simp only [hpay', Bool.true_and, Bool.not_eq_true', ← hdst, Bool.not_eq_true]

theorem State.decodeRefusal_eq_none (hdst : s.dstAddr.toNat + s.dstCap.toNat ≤ 2 ^ 32)
    (hapart : s.payWindow.overlaps s.dstWindow = false) (hfits : s.origLen.toNat ≤ s.dstCap.toNat) :
    s.decodeRefusal = none := by
  rw [State.decodeRefusal_of_decodable hhdr htree hpay, if_neg (not_not.mpr hdst), if_neg (ne_true_of_eq_false hapart),
    if_neg (not_lt.mpr hfits)]

end Checks

/-! ## The output in memory (R213) -/

section Decoded
variable {s : State} {out : List Byte}

theorem State.toNat_decoded_resultLen (out : List Byte) (hfits : s.origLen.toNat ≤ s.dstCap.toNat) :
    (s.decoded out).resultLen.toNat = s.origLen.toNat := by
  rw [State.decoded_resultLen, BitVec.toNat_setWidth, Nat.mod_eq_of_lt (lt_of_le_of_lt hfits s.dstCap.isLt)]

theorem State.bytes_decoded (hwf : s.mem.wf = true) (hlen : out.length = s.origLen.toNat)
    (hdst : s.dstAddr.toNat + s.dstCap.toNat ≤ 2 ^ 32) (hfits : s.origLen.toNat ≤ s.dstCap.toNat) :
    (s.decoded out).mem.bytes s.dstAddr.toNat out.length = out :=
  s.mem.holds_writeBytes _ out hwf (by omega)

theorem State.read_decoded_outside (s : State) (out : List Byte) (a : Nat)
    (h : a < s.dstAddr.toNat ∨ s.dstAddr.toNat + out.length ≤ a) : (s.decoded out).mem.read a = s.mem.read a :=
  s.mem.read_writeBytes_outside _ a out h

end Decoded

/-! ## A completed DECODE_PAYLOAD -/

section Exec
variable {s : State} (hraced : s.raced = false) (h : s.decodeRefusal = none)
include hraced h

theorem exec_decodePayload_of_output {out : List Byte} (hout : s.decodeOutput = .ok out) :
    exec .decodePayload s = .next (s.decoded out).completeOk := by
  rw [exec_unraced .decodePayload s hraced, runOf, runDecodePayload_of_output h hout, Run.complete_ok]

/-- R218: a CORRUPT_* error gives the destination window free values and clears RESULT_LEN. -/
theorem exec_decodePayload_of_corrupt {e : ErrCode} (hout : s.decodeOutput = .error e) :
    exec .decodePayload s = .next (({ s with mem := s.scrambleDst, resultLen := 0 } : State).takeError e) := by
  rw [exec_unraced .decodePayload s hraced, runOf, runDecodePayload_of_corrupt h hout, Run.complete_raise]

end Exec
end Sys2Proof.Machine

namespace Sys2Proof.Proofs
open Sys2Proof.Machine

/-- Settles O49: node 1 is the one-child root, node 0 its leaf. -/
theorem oneSymbolWalk : Obligations.OneSymbolWalk := by
  intro b w seed bits arena
  have hleaf : nodeIs arena (0 : NodeIdx).toNat (.leaf b w) := rfl
  have hroot : nodeIs arena (1 : NodeIdx).toNat (.fork w [b] 0 nodeNone) := rfl
  refine ⟨?zero, walkSymbol_missing_child seed hroot true rfl bits, walkSymbol_fork_nil seed hroot⟩
  rw [walkSymbol_fork_cons seed hroot false (by decide)]
  exact walkSymbol_leaf seed hleaf bits

/-- Settles O47: the four checks pass, the walk gives ORIG_LEN symbols, and only they are written. -/
theorem decodePayloadCompletes : Obligations.DecodePayloadCompletes := by
  intro s out hraced hwf hhdr htree hpay hdst hapart hfits hwalk hmatch
  have hready := State.decodeRefusal_eq_none hhdr htree hpay hdst hapart hfits
  have hout : s.decodeOutput = .ok out := (State.decodeOutput_of_walk hwalk).trans (if_pos hmatch)
  have hlen := s.length_of_decodeOutput_ok out hout
  exact ⟨_, exec_decodePayload_of_output hraced hready hout, hlen, State.bytes_decoded hwf hlen hdst hfits,
    s.read_decoded_outside out, State.toNat_decoded_resultLen out hfits, rfl⟩

/-- Settles O48: each way the output fails ends in one state, with the destination window scrambled. -/
theorem decodePayloadCorrupt : Obligations.DecodePayloadCorrupt := by
  intro s hraced hhdr htree hpay hdst hapart hfits walk corrupt
  have hready := State.decodeRefusal_eq_none hhdr htree hpay hdst hapart hfits
  have fails {e : ErrCode} (hout : s.decodeOutput = .error e) : corrupt e :=
    ⟨_, exec_decodePayload_of_corrupt hraced hready hout, s.read_scrambleDst_outside, rfl⟩
  refine ⟨fun e hwalk => ⟨walkSymbols_error_cases _ _ _ _ _ e hwalk, fails (State.decodeOutput_of_walk_error hwalk)⟩,
    fun out rest hwalk hrest => fails (State.decodeOutput_of_trailing hwalk hrest), fun out hwalk hmatch => ?_⟩
  exact fails ((State.decodeOutput_of_walk hwalk).trans (if_neg hmatch))

end Sys2Proof.Proofs
end

section
/-! PROOFS. DECODE (45_decoder.md R220, R221): PARSE_HEADER and BUILD_TREE load the header's table and tree, and after
them DECODE is DECODE_PAYLOAD of that state, which completes, is refused or finds the payload corrupt. -/

namespace Sys2Proof.Machine

/-! ## The state DECODE_PAYLOAD starts from -/

theorem runBuildIfAny_loadHeader (s : State) (h : Header) : runBuildIfAny (s.loadHeader h) = .ok (s.decodeStart h) := by
  simp only [runBuildIfAny, runBuildTree, State.decodeStart]
  split_ifs with hnsym htable
  · rfl
  · exact absurd htable Bool.false_ne_true.symm
  · rfl

theorem State.decodeStart_sameWindows (s : State) (h : Header) : SameWindows (s.loadHeader h) (s.decodeStart h) :=
  runBuildIfAny_sameWindows (runBuildIfAny_loadHeader s h)

theorem State.decodeStart_mem (s : State) (h : Header) : (s.decodeStart h).mem = s.mem :=
  (s.decodeStart_sameWindows h).mem

theorem State.decodeStart_dstWindow (s : State) (h : Header) : (s.decodeStart h).dstWindow = s.dstWindow :=
  (s.decodeStart_sameWindows h).dst

theorem State.decodeStart_draws (s : State) (h : Header) : (s.decodeStart h).draws = s.draws := by
  simp only [State.decodeStart]
  split <;> rfl

theorem State.decodeStart_sameButDecoded (s : State) (h : Header) : SameButDecoded s (s.decodeStart h) := by
  simp only [State.decodeStart]
  split <;> rfl

section Loaded
variable {s : State} {h : Header} (hp : parseHeader s.mem s.srcAddr.toNat s.srcLen.toNat = .ok h)
include hp

theorem State.loadHeader_nsym_eq_zero_iff : (s.loadHeader h).nsym = 0 ↔ h.nsym = 0 := by
  obtain ⟨hnsym, -⟩ := State.loadHeader_toNat hp
  rw [← hnsym]
  exact BitVec.toNat_inj.symm

/-- R200, R202, R220. -/
theorem State.decodeStart_headerLoaded : HeaderLoaded s h (s.decodeStart h) := by
  obtain ⟨hnsym, horig, haddr, hlen, hfbb⟩ := State.loadHeader_toNat hp
  have hzero := State.loadHeader_nsym_eq_zero_iff hp
  simp only [State.decodeStart]
  split_ifs with h0
  · have hnone : h.nsym = 0 := hzero.mp h0
    exact ⟨rfl, hnsym, horig, haddr, hlen, hfbb, fun hne => absurd hnone hne, fun _ => ⟨rfl, rfl⟩, rfl, rfl,
      (decide_eq_false (not_not.mpr hnone)).symm, rfl⟩
  · have hsome : h.nsym ≠ 0 := mt hzero.mpr h0
    exact ⟨rfl, hnsym, horig, haddr, hlen, hfbb, fun _ => rfl, fun hnone => absurd hnone hsome, rfl, rfl,
      (decide_eq_true hsome).symm, rfl⟩

/-- After the header the checks are the destination window's (R210, R212). -/
theorem State.decodeStart_decodeRefusal (hsrc : s.srcAddr.toNat + s.srcLen.toNat ≤ 2 ^ 32) :
    (s.decodeStart h).decodeRefusal =
    if ¬ s.dstAddr.toNat + s.dstCap.toNat ≤ 2 ^ 32 then some .addressRange
    else if (s.decodeStart h).payWindow.overlaps s.dstWindow = true then some .overlap
    else if s.dstCap.toNat < h.orig then some .outputOverflow
    else none := by
  obtain ⟨-, -, hlen, -⟩ := parseHeader_ok _ _ _ _ hp
  obtain ⟨-, hnsym, horig, -, -, -, -, -, -, hhdr, htree, -⟩ := State.decodeStart_headerLoaded hp
  have hpay := s.loadHeader_payWindow_inRange h ((Window.inRange_iff _).mpr hsrc) hlen
  rw [← (s.decodeStart_sameWindows h).pay, Window.inRange_iff] at hpay
  have hready : (s.decodeStart h).nsym = 0 ∨ (s.decodeStart h).treeValid = true := by
    by_cases h0 : h.nsym = 0
    · exact .inl (BitVec.eq_of_toNat_eq (hnsym.trans h0))
    · exact .inr (htree.trans (decide_eq_true h0))
  have hdstAddr : (s.decodeStart h).dstAddr = s.dstAddr := congrArg Window.base (s.decodeStart_dstWindow h)
  have hdstCap : (s.decodeStart h).dstCap = s.dstCap := congrArg Window.len (s.decodeStart_dstWindow h)
  rw [State.decodeRefusal_of_decodable hhdr hready hpay, s.decodeStart_dstWindow h, hdstAddr, hdstCap, horig]

end Loaded

/-! ## Its end -/

/-- q is p but for RESULT_LEN, memory and the completion fields, which is all that DECODE_PAYLOAD writes (R210). -/
def SameButOutput (p q : State) : Prop :=
  q = { p with
    mem := q.mem, resultLen := q.resultLen
    inflight := q.inflight, done := q.done, err := q.err, errCode := q.errCode, doneIp := q.doneIp
    draws := q.draws }

section Ends
variable {s p q : State} {h : Header}

theorem State.decoded_sameButOutput (p : State) (out : List Byte) : SameButOutput p (p.decoded out).completeOk := rfl

theorem State.failed_sameButOutput (p : State) (m : Memory) (e : ErrCode) :
    SameButOutput p (({ p with mem := m, resultLen := 0 } : State).takeError e) := rfl

theorem State.takeError_completed (p : State) {e : ErrCode} (he : e ≠ .none) : Completed e (p.takeError e) :=
  ⟨rfl, rfl, (decide_eq_true he).symm, rfl, rfl⟩

theorem HeaderLoaded.of_sameButOutput (hl : HeaderLoaded s h p) (hq : SameButOutput p q) : HeaderLoaded s h q := by
  rw [hq]
  exact hl

theorem SameButDecoded.of_sameButOutput (hs : SameButDecoded s p) (hq : SameButOutput p q) : SameButDecoded s q := by
  rw [SameButDecoded] at hs
  rw [hs] at hq
  rw [hq]
  rfl

end Ends

/-! ## DECODE -/

/-- How DECODE fails after an accepted header h: what its first two steps loaded stays (R221). -/
def DecodeFails (s : State) (h : Header) (e : ErrCode) : Prop :=
  ∃ t : State, exec .decode s = .next t ∧ Completed e t ∧ HeaderLoaded s h t ∧ SameButDecoded s t ∧
    t.resultLen = 0 ∧ SameOutside s.dstWindow s t ∧ (e.isCorrupt = false → t.mem = s.mem)

section Exec
variable {s : State} (hraced : s.raced = false)
include hraced

theorem exec_decode_of_past (hsrc : s.srcWindow.inRange = false) :
    exec .decode s = .next (({ s with resultLen := 0 } : State).takeError .addressRange) := by
  have hparse : runParseHeader s = .raise .addressRange s := if_pos (by rw [hsrc]; rfl)
  rw [exec_unraced .decode s hraced, runOf, runDecode, hparse]
  rfl

variable (hsrc : s.srcAddr.toNat + s.srcLen.toNat ≤ 2 ^ 32)
include hsrc

theorem exec_decode_of_corrupt_header {e : ErrCode}
    (hp : parseHeader s.mem s.srcAddr.toNat s.srcLen.toNat = .error e) :
    exec .decode s = .next (({ s.corruptHeader with resultLen := 0 } : State).takeError e) := by
  rw [exec_unraced .decode s hraced, runOf, runDecode, runParseHeader_of_error hsrc hp]
  rfl

variable {h : Header} (hp : parseHeader s.mem s.srcAddr.toNat s.srcLen.toNat = .ok h)
include hp

/-- After an accepted header DECODE is DECODE_PAYLOAD of what its other steps leave. -/
theorem exec_decode_of_header : exec .decode s = .next (runDecodePayload (s.decodeStart h)).complete := by
  rw [exec_unraced .decode s hraced, runOf, runDecode, runParseHeader_of_ok hsrc hp, Run.andThen_ok,
    runBuildIfAny_loadHeader, Run.andThen_ok]
  exact congrArg (fun r => Host.Outcome.next (Run.complete r)) (Run.zeroLength_zeroLength _)

theorem exec_decode_of_output (hready : (s.decodeStart h).decodeRefusal = none) {out : List Byte}
    (hout : (s.decodeStart h).decodeOutput = .ok out) :
    exec .decode s = .next ((s.decodeStart h).decoded out).completeOk := by
  rw [exec_decode_of_header hraced hsrc hp, runDecodePayload_of_output hready hout, Run.complete_ok]

theorem decodeFails_of_refused {e : ErrCode} (he : e ≠ .none) (hrefused : (s.decodeStart h).decodeRefusal = some e) :
    DecodeFails s h e := by
  have hloaded := State.decodeStart_headerLoaded hp
  have hsame := s.decodeStart_sameButDecoded h
  have hmem := s.decodeStart_mem h
  have hexec := exec_decode_of_header hraced hsrc hp
  rw [runDecodePayload_of_refused hrefused, Run.complete_raise] at hexec
  generalize s.decodeStart h = p at hloaded hsame hmem hexec
  have hend := p.failed_sameButOutput p.mem e
  exact ⟨_, hexec, State.takeError_completed _ he, hloaded.of_sameButOutput hend, hsame.of_sameButOutput hend, rfl,
    fun a _ => congrArg (Memory.read · a) hmem, fun _ => hmem⟩

theorem decodeFails_of_corrupt {e : ErrCode} (hready : (s.decodeStart h).decodeRefusal = none)
    (hout : (s.decodeStart h).decodeOutput = .error e) : DecodeFails s h e := by
  have hloaded := State.decodeStart_headerLoaded hp
  have hsame := s.decodeStart_sameButDecoded h
  have hmem := s.decodeStart_mem h
  have hdst := s.decodeStart_dstWindow h
  have hmember := State.decodeOutput_error _ e hout
  have hclass : ∀ e ∈ payloadErrs, e.isCorrupt = true := by decide
  have hexec := exec_decode_of_header hraced hsrc hp
  rw [runDecodePayload_of_corrupt hready hout, Run.complete_raise] at hexec
  generalize s.decodeStart h = p at hloaded hsame hmem hdst hexec
  have hend := p.failed_sameButOutput p.scrambleDst e
  refine ⟨_, hexec, State.takeError_completed _ (ne_of_mem_of_not_mem hmember (by decide)),
    hloaded.of_sameButOutput hend, hsame.of_sameButOutput hend, rfl, fun a ha => ?_,
    fun hno => absurd (hclass e hmember) (ne_true_of_eq_false hno)⟩
  rw [← hmem]
  exact p.read_scrambleDst_outside a (hdst ▸ ha)

end Exec
end Sys2Proof.Machine

namespace Sys2Proof.Proofs
open Sys2Proof.Machine

/-- Settles O52: DECODE is DECODE_PAYLOAD of the loaded state, which passes the checks; what it does not write is the
header's or is that of s. -/
theorem decodeCompletes : Obligations.DecodeCompletes := by
  intro s h out hraced hwf hsrc hp hdst hapart hfits hout
  have hready : (s.decodeStart h).decodeRefusal = none := by
    rw [State.decodeStart_decodeRefusal hp hsrc, if_neg (not_not.mpr hdst), if_neg (ne_true_of_eq_false hapart),
      if_neg (not_lt.mpr hfits)]
  have hexec := exec_decode_of_output hraced hsrc hp hready hout
  have hloaded := State.decodeStart_headerLoaded hp
  obtain ⟨-, -, horig, -⟩ := id hloaded
  have hsame := s.decodeStart_sameButDecoded h
  have hmem := s.decodeStart_mem h
  have hdstAddr : (s.decodeStart h).dstAddr = s.dstAddr := congrArg Window.base (s.decodeStart_dstWindow h)
  have hdstCap : (s.decodeStart h).dstCap = s.dstCap := congrArg Window.len (s.decodeStart_dstWindow h)
  have hlen := State.length_of_decodeOutput_ok _ out hout
  generalize s.decodeStart h = p at *
  have hend := p.decoded_sameButOutput out
  rw [← horig, ← hdstCap] at hfits
  rw [← hdstAddr, ← hdstCap] at hdst
  refine ⟨_, hexec, ⟨rfl, rfl, rfl, rfl, rfl⟩, hloaded.of_sameButOutput hend, hsame.of_sameButOutput hend,
    hlen.trans horig, (p.toNat_decoded_resultLen out hfits).trans hlen.symm, ?bytes, fun a ha => ?outside⟩
  case bytes =>
    rw [← hdstAddr]
    exact State.bytes_decoded (hmem ▸ hwf) hlen hdst hfits
  case outside =>
    rw [← hmem]
    exact p.read_decoded_outside out a (hdstAddr ▸ ha)

/-- Settles O53: a source out of range and a corrupt header fail in PARSE_HEADER; after an accepted header the errors
are DECODE_PAYLOAD's, and what the steps before it loaded stays. -/
theorem decodeErrorKeepsSteps : Obligations.DecodeErrorKeepsSteps := by
  intro s hraced
  refine ⟨fun hpast => ?past, fun hsrc e hp => ⟨_, exec_decode_of_corrupt_header hraced hsrc hp, rfl⟩,
    fun hsrc h hp => ?accepted⟩
  case past =>
    refine exec_decode_of_past hraced (Bool.eq_false_iff.mpr fun hin => ?_)
    exact absurd ((Window.inRange_iff _).mp hin) (not_le.mpr hpast)
  case accepted =>
    intro p walk inRange clear fails
    have hchecks := State.decodeStart_decodeRefusal hp hsrc
    obtain ⟨hfreq, -, horig, -⟩ := State.decodeStart_headerLoaded hp
    have refused {e : ErrCode} (he : e ≠ .none) : p.decodeRefusal = some e → fails e :=
      decodeFails_of_refused hraced hsrc hp he
    refine ⟨fun hdst => refused (by decide) ?range, fun hdst hover => refused (by decide) ?overlap,
      fun hdst hapart hshort => refused (by decide) ?overflow, fun hdst hapart hfits => ?corrupt⟩
    case range => exact hchecks.trans (if_pos hdst)
    case overlap =>
      exact hchecks.trans ((if_neg (not_not.mpr hdst)).trans (if_pos (eq_true_of_ne_false hover)))
    case overflow =>
      exact hchecks.trans ((if_neg (not_not.mpr hdst)).trans
        ((if_neg (ne_true_of_eq_false hapart)).trans (if_pos hshort)))
    case corrupt =>
      have hready : p.decodeRefusal = none := hchecks.trans ((if_neg (not_not.mpr hdst)).trans
        ((if_neg (ne_true_of_eq_false hapart)).trans (if_neg (not_lt.mpr hfits))))
      have corrupt {e : ErrCode} : p.decodeOutput = .error e → fails e := decodeFails_of_corrupt hraced hsrc hp hready
      have hwalk : walk = walkSymbols p.arena p.draws p.root p.origLen.toNat p.payloadBits := by rw [horig]
      rw [hwalk, ← hfreq]
      refine ⟨fun e he => ⟨walkSymbols_error_cases _ _ _ _ _ e he, corrupt (State.decodeOutput_of_walk_error he)⟩,
        fun out rest hok hrest => corrupt (State.decodeOutput_of_trailing hok hrest), fun out hok hmatch => ?_⟩
      exact corrupt ((State.decodeOutput_of_walk hok).trans (if_neg hmatch))

end Sys2Proof.Proofs
end

section
/-! PROOFS. What decode(encode(B)) = B needs of the payload (45_decoder.md R214, R215): packed bits unpack to
themselves, each code leads the walk to its symbol's leaf, and part of a window lies clear where the window does. -/

namespace Sys2Proof.Machine

/-! ## The payload, unpacked (R34, R94, R186, R214) -/

theorem toNat_finalBitsOf (t : DWord) :
    (finalBitsOf t).toNat = if t.toNat = 0 then 0 else (t.toNat - 1) % 8 + 1 := by
  have hzero : t = 0 ↔ t.toNat = 0 := BitVec.toNat_inj.symm
  by_cases h0 : t.toNat = 0
  · rw [finalBitsOf, if_pos (hzero.mpr h0), if_pos h0]
    rfl
  · rw [if_neg h0]
    by_cases hfull : t.toNat % 8 = 0
    · rw [finalBitsOf_of_full (mt hzero.mp h0) hfull]
      change 8 = _
      omega
    · rw [toNat_finalBitsOf_of_part hfull]
      omega

section Packed
variable {t : DWord} {bits : List Bool} (ht : t.toNat = bits.length)
include ht

/-- FINAL_BITS is a legal finalByteBits of the packed bits (R94). -/
theorem finalByteBitsLegal_packBits : finalByteBitsLegal (packBits bits).length (finalBitsOf t).toNat = true := by
  rw [finalByteBitsLegal, length_packBits, toNat_finalBitsOf, ht, ceil8]
  split_ifs <;> rw [decide_eq_true_eq] <;> omega

/-- The bits past FINAL_BITS in the last byte are the padding. -/
theorem getLsbD_getLastD_packBits (k : Nat) (hk : k < 8 - (finalBitsOf t).toNat) :
    ((packBits bits).getLastD 0).getLsbD k = false := by
  have hlen := length_packBits bits
  rw [toNat_finalBitsOf, ht] at hk
  have hlast : (packBits bits).getLastD 0 = (packBits bits).getD (ceil8 bits.length - 1) 0 := by
    rw [← hlen, List.getLastD_eq_getLast?, List.getLast?_eq_getElem?, List.getD_eq_getElem?_getD]
  have hbit := bitOf_packBits bits (8 * (ceil8 bits.length - 1) + (7 - k))
  rw [bitOf, show (8 * (ceil8 bits.length - 1) + (7 - k)) / 8 = ceil8 bits.length - 1 by omega,
    show 7 - (8 * (ceil8 bits.length - 1) + (7 - k)) % 8 = k by omega, ← hlast] at hbit
  rw [hbit, List.getD_eq_default]
  unfold ceil8
  split_ifs at hk <;> omega

/-- A payload window that holds the packed bits reads as those bits. -/
theorem State.payloadBits_of_packed {s : State} (hmem : s.mem.Holds s.payAddr.toNat (packBits bits))
    (hlen : s.payLen.toNat = (packBits bits).length) (hfbb : s.payFbb.toNat = (finalBitsOf t).toNat) :
    s.payloadBits = bits := by
  rw [length_packBits] at hlen
  rw [toNat_finalBitsOf, ht] at hfbb
  have hzero : s.payLen = 0 ↔ s.payLen.toNat = 0 := BitVec.toNat_inj.symm
  have hsize : s.significantBits = bits.length := by
    simp only [State.significantBits, hzero, hlen, hfbb, ceil8]
    split_ifs <;> omega
  refine List.ext_getElem (by simp [State.payloadBits, hsize]) fun k hk hk' => ?_
  have hbyte : k / 8 < (packBits bits).length := by rw [length_packBits, ceil8]; omega
  rw [← List.getD_eq_getElem bits false hk', ← bitOf_packBits, bitOf, List.getD_eq_getElem _ _ hbyte,
    ← hmem.read_getElem hbyte]
  simp only [State.payloadBits, List.getElem_map, List.getElem_range, State.payloadBit]
  rw [if_pos (by rw [hlen, ← length_packBits]; exact hbyte)]

end Packed

/-! ## The walk follows the codes (R171, R215) -/

theorem Subtree.walkSymbol_seed_irrelevant {arena : List Node} {i : NodeIdx} {h : Nat} {bs : List Byte}
    (hs : Subtree arena i h bs) (seed seed' : Nat) (bits : List Bool) :
    walkSymbol arena seed i bits = walkSymbol arena seed' i bits := by
  induction hs generalizing bits with
  | leaf node => rw [walkSymbol_leaf seed node, walkSymbol_leaf seed' node]
  | one node hl left ih =>
    cases bits with
    | nil => rw [walkSymbol_fork_nil seed node, walkSymbol_fork_nil seed' node]
    | cons bit bits =>
      cases bit with
      | false => rw [walkSymbol_fork_cons seed node false hl, walkSymbol_fork_cons seed' node false hl]; exact ih bits
      | true => rw [walkSymbol_missing_child seed node true rfl, walkSymbol_missing_child seed' node true rfl]
  | two node hleft hright left right apart ihl ihr =>
    cases bits with
    | nil => rw [walkSymbol_fork_nil seed node, walkSymbol_fork_nil seed' node]
    | cons bit bits =>
      cases bit with
      | false =>
        rw [walkSymbol_fork_cons seed node false hleft, walkSymbol_fork_cons seed' node false hleft]
        exact ihl bits
      | true =>
        rw [walkSymbol_fork_cons seed node true hright, walkSymbol_fork_cons seed' node true hright]
        exact ihr bits

/-- The code of a present symbol leads to its leaf, whatever the draws the tree is built and walked with. -/
theorem codesFor_leads {freq : Vector Word 256} {nsym : BitVec 9} (hcounts : Counts freq nsym) (hnsym : nsym ≠ 0)
    (seed seed' : Nat) {b : Byte} (hb : tget freq b ≠ 0) :
    Leads (buildArena freq nsym seed').1 seed' (buildArena freq nsym seed').2 ((codesFor freq nsym seed).code b) b := by
  obtain ⟨hpresent, -⟩ := codesOf_buildArena hcounts hnsym seed seed
  obtain ⟨p, hlead, -, hlen, hentry⟩ := hpresent b hb
  obtain ⟨h, bs, hs, -⟩ := subtree_buildArena hcounts hnsym seed
  rw [buildArena_seed_irrelevant hcounts hnsym seed' seed, codesFor, CodeTable.code_of_pathEntry hlen hentry]
  exact fun rest => (hs.walkSymbol_seed_irrelevant seed' seed _).trans (hlead rest)

theorem walkSymbols_encodeBits {arena : List Node} {seed : Nat} {root : NodeIdx} {l : Vector Byte 256}
    {c : Vector CodeWord 256} (bs : List Byte)
    (h : ∀ b ∈ bs, Leads arena seed root (codeBitList (tget l b) (tget c b)) b) :
    walkSymbols arena seed root bs.length (encodeBits l c bs) = .ok (bs, []) := by
  induction bs with
  | nil => rfl
  | cons b bs ih =>
    obtain ⟨hb, hbs⟩ := List.forall_mem_cons.mp h
    have hsplit : encodeBits l c (b :: bs) = codeBitList (tget l b) (tget c b) ++ encodeBits l c bs :=
      List.flatMap_cons ..
    simp only [List.length_cons, walkSymbols, hsplit, hb _, ih hbs]

/-! ## Windows -/

theorem Window.overlaps_iff (v w : Window) :
    v.overlaps w = true ↔ ∃ a, v.contains a = true ∧ w.contains a = true := by
  simp only [Window.contains_iff, Window.overlaps, decide_eq_true_eq]
  constructor
  · exact fun h => ⟨max v.base.toNat w.base.toNat, by omega⟩
  · rintro ⟨a, ha⟩
    omega

/-- A part of a window overlaps nothing that the window does not overlap. -/
theorem Window.not_overlaps_of_subset {u v w : Window} (hsub : ∀ a, u.contains a = true → v.contains a = true)
    (h : v.overlaps w = false) : u.overlaps w = false := by
  rw [← Bool.not_eq_true, Window.overlaps_iff] at h ⊢
  exact fun ⟨a, hu, hw⟩ => h ⟨a, hsub a hu, hw⟩

end Sys2Proof.Machine
end

section
/-! PROOFS. decode(encode(B)) = B (45_decoder.md R220; 44_encoder.md R184): DECODE of the stream that ENCODE wrote
accepts its header, unpacks its code bits and walks them back to the source. -/

namespace Sys2Proof.Machine

/-! ## The stream of a truthful table, parsed (R185, R206) -/

/-- The header of the stream that EMIT_STREAM writes. -/
def State.streamHeader (q : State) : Header where
  freq := q.freq
  nsym := (present q.freq).length
  orig := totalCount q.freq
  fbb := (finalBitsOf q.emitted.totalBits).toNat

/-- DECODE of the stream that EMIT_STREAM wrote, about to run with a destination window of its own. -/
def State.readBack (q : State) (d c : Word) : State :=
  { q.emitted.completeOk with srcAddr := q.dstAddr, srcLen := q.emitted.resultLen, dstAddr := d, dstCap := c }

section Stream
variable {q : State} (hs : q.FlagsTruthful) (htable : q.tableValid = true)
  (hcodes : q.codesValid = true ∨ (q.tableValid = true ∧ q.nsym = 0)) (hmatch : histogram q.srcBytes = q.freq)
include hs hcodes hmatch

theorem State.FlagsTruthful.toNat_emitted_totalBits_eq_length : q.emitted.totalBits.toNat = q.emitBits.length := by
  rw [q.toNat_emitted_totalBits, State.length_emitBits hmatch, hs.codedBits_eq_emitTotalBits hcodes]

theorem State.FlagsTruthful.emitSize_eq_length :
    q.emitSize = headerLen (present q.freq).length + (packBits q.emitBits).length := by
  have hcounts : q.nsym.toNat = (present q.freq).length := hs.counts_of_encodable hcodes
  rw [State.emitSize, hcounts, length_packBits, ← hs.toNat_emitted_totalBits_eq_length hcodes hmatch,
    q.toNat_emitted_totalBits]

variable (hwf : q.mem.wf = true) (hroom : q.dstAddr.toNat + q.emitSize ≤ 2 ^ 32)
include htable hwf hroom

theorem State.FlagsTruthful.emitMem_holds : q.emitMem.Holds q.dstAddr.toNat
    (headerBytes q.freq (present q.freq).length (totalCount q.freq) q.streamHeader.fbb ++ packBits q.emitBits) := by
  obtain ⟨hnsym, horig⟩ := hs.1 htable
  have hfbb : q.emitFinalBits = q.streamHeader.fbb := by
    rw [← q.toNat_emitted_finalBits, hs.emitted_finalBits hcodes]
    rfl
  have hlen := hs.length_stream hcodes hmatch
  rw [hs.emitMem_eq hcodes hmatch, ← hnsym, ← horig, ← hfbb]
  exact q.mem.holds_writeBytes _ _ hwf (hlen.symm ▸ hroom)

theorem State.FlagsTruthful.parseHeader_emitMem :
    parseHeader q.emitMem q.dstAddr.toNat q.emitSize = .ok q.streamHeader := by
  have ht := hs.toNat_emitted_totalBits_eq_length hcodes hmatch
  rw [hs.emitSize_eq_length hcodes hmatch]
  exact (hs.emitMem_holds htable hcodes hmatch hwf hroom).parseHeader_eq (finalByteBitsLegal_packBits ht)
    (getLsbD_getLastD_packBits ht)

end Stream

/-! ## The payload, decoded (R214, R215) -/

/-- A payload of code bits whose codes the tree follows decodes to the symbols. -/
theorem State.decodeOutput_of_codes {p : State} {l : Vector Byte 256} {c : Vector CodeWord 256} {bs : List Byte}
    (hbits : p.payloadBits = encodeBits l c bs) (horig : p.origLen.toNat = bs.length)
    (hleads : ∀ b ∈ bs, Leads p.arena p.draws p.root (codeBitList (tget l b) (tget c b)) b)
    (hmatch : histogram bs = p.freq) : p.decodeOutput = .ok bs := by
  have hwalk : walkSymbols p.arena p.draws p.root p.origLen.toNat p.payloadBits = .ok (bs, []) := by
    rw [hbits, horig]
    exact walkSymbols_encodeBits bs hleads
  exact (State.decodeOutput_of_walk hwalk).trans (if_pos hmatch)

/-- An accepted stream that ends with packed bits has them as its payload's bits. -/
theorem State.decodeStart_payloadBits {v : State} {h : Header} {t : DWord} {bits : List Bool}
    (ht : t.toNat = bits.length) (hp : parseHeader v.mem v.srcAddr.toNat v.srcLen.toNat = .ok h)
    (hsrc : v.srcAddr.toNat + v.srcLen.toNat ≤ 2 ^ 32)
    (hlen : v.srcLen.toNat = headerLen h.nsym + (packBits bits).length)
    (hmem : v.mem.Holds (v.srcAddr.toNat + headerLen h.nsym) (packBits bits))
    (hfbb : h.fbb = (finalBitsOf t).toNat) : (v.decodeStart h).payloadBits = bits := by
  obtain ⟨-, -, -, haddr, hpayLen, hpayFbb, -⟩ := State.decodeStart_headerLoaded hp
  rw [headerLen] at hlen
  refine State.payloadBits_of_packed ht ?_ (by omega) (hpayFbb.trans hfbb)
  rw [v.decodeStart_mem h, haddr]
  by_cases hnil : packBits bits = []
  · rw [hnil]
    rfl
  · have hpos := List.length_pos_of_ne_nil hnil
    rwa [Nat.mod_eq_of_lt (by omega), Nat.add_assoc]

/-- What lies clear of the stream lies clear of its payload. -/
theorem State.decodeStart_payWindow_not_overlaps {v : State} {h : Header} {w : Window}
    (hp : parseHeader v.mem v.srcAddr.toNat v.srcLen.toNat = .ok h)
    (hsrc : v.srcAddr.toNat + v.srcLen.toNat ≤ 2 ^ 32) (hapart : v.srcWindow.overlaps w = false) :
    (v.decodeStart h).payWindow.overlaps w = false := by
  obtain ⟨-, -, hlen, -⟩ := parseHeader_ok _ _ _ _ hp
  rw [(v.decodeStart_sameWindows h).pay]
  exact Window.not_overlaps_of_subset
    (v.loadHeader_payWindow_contains h ((Window.inRange_iff _).mpr hsrc) hlen) hapart

/-! ## The stream read back -/

section ReadBack
variable {q : State} (hs : q.FlagsTruthful) (htable : q.tableValid = true)
  (hcodes : q.codesValid = true ∨ (q.tableValid = true ∧ q.nsym = 0)) (hmatch : histogram q.srcBytes = q.freq)
  (hwf : q.mem.wf = true) (hroom : q.dstAddr.toNat + q.emitSize ≤ 2 ^ 32) (hfits : q.emitSize ≤ q.dstCap.toNat)
  (d c : Word)
include hs htable hcodes hmatch hwf hroom hfits

theorem State.FlagsTruthful.parseHeader_readBack :
    parseHeader (q.readBack d c).mem (q.readBack d c).srcAddr.toNat (q.readBack d c).srcLen.toNat =
      .ok q.streamHeader := by
  have hlen : (q.readBack d c).srcLen.toNat = q.emitSize := State.toNat_emitted_resultLen hfits
  rw [hlen]
  exact hs.parseHeader_emitMem htable hcodes hmatch hwf hroom

/-- With codes that the table's tree follows, DECODE of the stream finds the source in it. -/
theorem State.FlagsTruthful.decodeOutput_readBack
    (hleads : ∀ seed, ∀ b ∈ q.srcBytes, q.nsym ≠ 0 ∧ Leads (buildArena q.freq q.nsym seed).1 seed
      (buildArena q.freq q.nsym seed).2 (codeBitList (tget q.codeLen b) (tget q.codeBits b)) b) :
    ((q.readBack d c).decodeStart q.streamHeader).decodeOutput = .ok q.srcBytes := by
  have hparse := hs.parseHeader_readBack htable hcodes hmatch hwf hroom hfits d c
  have hlen : (q.readBack d c).srcLen.toNat = q.emitSize := State.toNat_emitted_resultLen hfits
  have hheld := hs.emitMem_holds htable hcodes hmatch hwf hroom
  have hbits := State.decodeStart_payloadBits (bits := q.emitBits)
    (hs.toNat_emitted_totalBits_eq_length hcodes hmatch) hparse (hlen.symm ▸ hroom)
    (hlen.trans (hs.emitSize_eq_length hcodes hmatch)) ?payload rfl
  obtain ⟨hfreq, hnsym, horig, -, -, -, htree, -⟩ := State.decodeStart_headerLoaded hparse
  have hdraws := (q.readBack d c).decodeStart_draws q.streamHeader
  generalize (q.readBack d c).decodeStart q.streamHeader = p at *
  case payload =>
    obtain ⟨-, -, -, -, hpayload⟩ := hheld.header
    exact hpayload
  have hcounts : q.nsym.toNat = (present q.freq).length := hs.counts_of_encodable hcodes
  have hpn : p.nsym = q.nsym := BitVec.eq_of_toNat_eq (hnsym.trans hcounts.symm)
  have hlength : totalCount q.freq = q.srcBytes.length := by
    rw [← hmatch]
    exact totalCount_histogram _ (q.length_srcBytes ▸ q.srcLen.isLt)
  refine State.decodeOutput_of_codes hbits (horig.trans hlength) (fun b hb => ?_) (hmatch.trans hfreq.symm)
  obtain ⟨hne, hlead⟩ := hleads p.draws b hb
  have hbuilt : (p.arena, p.root) = buildArena q.freq q.nsym p.draws := by
    rw [← hpn, hdraws]
    exact htree fun h0 => hne (BitVec.eq_of_toNat_eq (hcounts.trans h0))
  rwa [← hbuilt] at hlead

end ReadBack

/-! ## An ENCODE that succeeded -/

/-- A successful ENCODE passed the destination's checks and wrote the stream (R190, R235). -/
theorem checks_of_exec_encode {s t : State} (hraced : s.raced = false) (h : exec .encode s = .next t)
    (hok : t.errCode = .none) :
    s.dstAddr.toNat + s.dstCap.toNat ≤ 2 ^ 32 ∧ s.encodedSize ≤ s.dstCap.toNat ∧
      t = s.encodeStart.emitted.completeOk := by
  by_cases hin : s.srcWindow.inRange = true
  · have hsrc := (Window.inRange_iff _).mp hin
    have hchecks := State.encodeStart_emitRefusal hsrc
    cases hcheck : s.encodeStart.emitRefusal with
    | none =>
      rw [hcheck] at hchecks
      split_ifs at hchecks with hdst hover hshort
      have hexec := (exec_encode_of_accepted hraced hin hcheck).symm.trans h
      exact ⟨hdst, not_lt.mp hshort, (Host.Outcome.next.inj hexec).symm⟩
    | some e =>
      cases (exec_encode_of_refused hraced hin hcheck).symm.trans h
      rw [hcheck, show e = .none from hok] at hchecks
      split_ifs at hchecks <;> cases hchecks
  · cases (exec_encode_of_past hraced (Bool.eq_false_iff.mpr hin)).symm.trans h
    cases hok

/-- The code of each byte of the source leads to its leaf, in the tree built of the source's table with any draws. -/
theorem State.encodeStart_code_leads (s : State) (seed : Nat) {b : Byte} (hb : b ∈ s.srcBytes) :
    s.encodeStart.nsym ≠ 0 ∧
    Leads (buildArena s.encodeStart.freq s.encodeStart.nsym seed).1 seed
      (buildArena s.encodeStart.freq s.encodeStart.nsym seed).2
      (codeBitList (tget s.encodeStart.codeLen b) (tget s.encodeStart.codeBits b)) b := by
  have hcounts : Counts s.encodeStart.freq s.encodeStart.nsym := s.toNat_encodeStart_nsym
  have hpresent : tget s.encodeStart.freq b ≠ 0 := fun h0 => by
    have hcount := s.toNat_tget_histogram_srcBytes b
    rw [← s.encodeStart_freq, h0] at hcount
    exact (List.count_pos_iff.mpr hb).ne hcount
  have hnsym : s.encodeStart.nsym ≠ 0 := fun h0 => by
    have hnone : (present s.encodeStart.freq).length = 0 := hcounts.symm.trans (congrArg BitVec.toNat h0)
    exact List.ne_nil_of_mem ((mem_present _ b).mpr hpresent) (List.length_eq_zero_iff.mp hnone)
  have hlead := codesFor_leads hcounts hnsym s.draws seed hpresent
  rw [← s.encodeStart_codes hnsym] at hlead
  exact ⟨hnsym, hlead⟩

/-- DECODE of the stream that ENCODE wrote is accepted and finds the source in it. -/
theorem State.encodeStart_readBack (s : State) (d c : Word) (hwf : s.mem.wf = true)
    (hroom : s.encodeStart.dstAddr.toNat + s.encodeStart.emitSize ≤ 2 ^ 32)
    (hfits : s.encodeStart.emitSize ≤ s.encodeStart.dstCap.toNat) :
    let v := s.encodeStart.readBack d c
    let h := s.encodeStart.streamHeader
    parseHeader v.mem v.srcAddr.toNat v.srcLen.toNat = .ok h ∧ h.orig = s.srcLen.toNat ∧
      (v.decodeStart h).decodeOutput = .ok s.srcBytes := by
  have hs := s.encodeStart_truthful
  have htable := s.encodeStart_tableValid
  have hcodes := s.encodeStart_encodable
  have hmatch := s.encodeStart_matches
  have hwf' : s.encodeStart.mem.wf = true := s.encodeStart_mem ▸ hwf
  have hsrc := s.encodeStart_srcBytes
  have horig : totalCount s.encodeStart.freq = s.srcLen.toNat := by
    rw [s.encodeStart_freq, totalCount_histogram _ (s.length_srcBytes ▸ s.srcLen.isLt), s.length_srcBytes]
  have hleads := fun seed b (hb : b ∈ s.encodeStart.srcBytes) => s.encodeStart_code_leads seed (hsrc ▸ hb)
  generalize s.encodeStart = q at *
  exact ⟨hs.parseHeader_readBack htable hcodes hmatch hwf' hroom hfits d c, horig,
    hsrc ▸ hs.decodeOutput_readBack htable hcodes hmatch hwf' hroom hfits d c hleads⟩

end Sys2Proof.Machine

namespace Sys2Proof.Proofs
open Sys2Proof.Machine

/-- Settles O54: ENCODE's stream meets the premises of O52, with the source as the output. -/
theorem decodeOfEncodeIsIdentity : Obligations.DecodeOfEncodeIsIdentity := by
  intro s t d c hraced hwf h hok hdst hcap hapart
  obtain ⟨hroom, hfits, ht⟩ := checks_of_exec_encode hraced h hok
  have hdstAddr : s.encodeStart.dstAddr = s.dstAddr := congrArg Window.base s.encodeStart_dstWindow
  have hdstCap : s.encodeStart.dstCap = s.dstCap := congrArg Window.len s.encodeStart_dstWindow
  rw [← s.encodeStart_emitSize, ← hdstCap] at hfits
  rw [← hdstAddr, ← hdstCap] at hroom
  have hroom' : s.encodeStart.dstAddr.toNat + s.encodeStart.emitSize ≤ 2 ^ 32 := by omega
  obtain ⟨hparse, horig, hout⟩ := s.encodeStart_readBack d c hwf hroom' hfits
  have hwf' : (s.encodeStart.readBack d c).mem.wf = true := s.encodeStart.wf_emitMem (s.encodeStart_mem ▸ hwf)
  have hsize : (s.encodeStart.readBack d c).srcLen.toNat = s.encodeStart.emitSize := State.toNat_emitted_resultLen hfits
  have hstate : ({ t with srcAddr := s.dstAddr, srcLen := t.resultLen, dstAddr := d, dstCap := c } : State) =
      s.encodeStart.readBack d c := by
    rw [ht, ← hdstAddr]
    rfl
  have hclear : (s.encodeStart.readBack d c).srcWindow.overlaps { base := d, len := c } = false := by
    rwa [← hstate]
  have hread : (s.encodeStart.readBack d c).srcAddr.toNat + (s.encodeStart.readBack d c).srcLen.toNat ≤ 2 ^ 32 := by
    rw [hsize]
    exact hroom'
  rw [hstate]
  obtain ⟨u, hexec, hdone, -, -, -, hresult, hbytes, -⟩ := decodeCompletes _ _ _ rfl hwf' hread hparse hdst
    (State.decodeStart_payWindow_not_overlaps hparse hread hclear) (horig.trans_le hcap) hout
  rw [s.length_srcBytes] at hresult hbytes
  exact ⟨u, hexec, hdone, BitVec.eq_of_toNat_eq hresult, hbytes⟩

end Sys2Proof.Proofs
end

section
/-! PROOFS. The interrupt (60_exceptions.md R240, R241): every completion step sets DONE_IP and keeps DONE_IE, and of
the events of the outside world only reset and a write of 1 to INT_STATUS bit 0 clear DONE_IP. -/

namespace Sys2Proof.Machine

/-! ## Completion steps -/

theorem State.irq_iff (s : State) : s.irq = true ↔ s.doneIe = true ∧ s.doneIp = true := Bool.and_eq_true_iff

theorem exec_doneIp (i : Instr) (s t : State) (h : exec i s = .next t) : t.doneIp = true := by
  cases hraced : s.raced with
  | false =>
    cases (exec_unraced i s hraced).symm.trans h
    obtain ⟨-, -, hip⟩ := (runOf i s).complete_status
    exact hip
  | true =>
    cases (exec_raced i s hraced).symm.trans h
    rfl

/-- R240, R241: the completion of every command word, legal or not. -/
theorem runWord_interrupt (w : Word) (s t : State) (h : runWord w s = .next t) :
    t.doneIe = s.doneIe ∧ t.doneIp = true := by
  obtain ⟨i, -, hrun⟩ | ⟨e, -, hrun⟩ := runWord_cases w s <;> rw [hrun] at h
  · obtain ⟨-, -, -, -, -, hie, -⟩ := exec_sameHostSide i s t h
    exact ⟨hie, exec_doneIp i s t h⟩
  · cases h
    exact ⟨rfl, rfl⟩

/-! ## Events of the outside world -/

theorem regAt_intStatus (off : Byte) (h : regAt off = some .intStatus) : off = 0x10 := by
  revert off
  decide

theorem State.writeReg_doneIp (s : State) (r : Reg) (v : Word) (h : r ≠ .intStatus) :
    (s.writeReg r v).doneIp = s.doneIp := by
  cases r with
  | intStatus => exact absurd rfl h
  | cmd | tblIndex | srcAddr | srcLen | dstAddr | dstCap => exact (apply_ite State.doneIp _ _ _).trans (ite_self _)
  | _ => rfl

theorem State.busWrite_clears_doneIp (s : State) (off : Byte) (v : Word) (hip : s.doneIp = true)
    (h : (s.busWrite off v).doneIp = false) : off = 0x10 ∧ v.getLsbD 0 = true := by
  have kept {u : State} (hu : u.doneIp = false) : u.doneIp ≠ s.doneIp := by rw [hu, hip]; decide
  unfold State.busWrite at h
  split at h
  · exact absurd rfl (kept h)
  · split at h
    · exact absurd rfl (kept h)
    · next r hreg =>
      obtain rfl : r = .intStatus := by_contra fun hr => kept h (s.writeReg_doneIp r v hr)
      refine ⟨regAt_intStatus off hreg, eq_true_of_ne_false fun hbit => kept h ?_⟩
      exact congrArg State.doneIp (s.acknowledge_of_clear v hbit)

/-- R241: what takes DONE_IP from 1 to 0. -/
theorem State.event_clears_doneIp (s : State) (e : HostEvent) (hip : s.doneIp = true)
    (h : (s.event e).doneIp = false) : e = .rstAssert ∨ ∃ v : Word, e = .write 0x10 v ∧ v.getLsbD 0 = true := by
  have kept {u : State} (hu : u.doneIp = s.doneIp) : u.doneIp ≠ false := by rw [hu, hip]; decide
  cases e with
  | write off v =>
    obtain ⟨rfl, hbit⟩ := s.busWrite_clears_doneIp off v hip h
    exact .inr ⟨v, rfl, hbit⟩
  | rstAssert => exact .inl rfl
  | memWrite a b =>
    rw [State.event, State.outsideWrite_eq] at h
    exact absurd h (kept rfl)
  | read off => exact absurd h (kept rfl)
  | memRead a => exact absurd h (kept rfl)
  | rstRelease => exact absurd h (kept rfl)

theorem State.turn_clears_doneIp (s : State) (hip : s.doneIp = true) (h : s.turn.doneIp = false) :
    ∃ e rest, s.inputs = e :: rest ∧ (e = .rstAssert ∨ ∃ v : Word, e = .write 0x10 v ∧ v.getLsbD 0 = true) := by
  cases hin : s.inputs with
  | nil =>
    rw [s.turn_nil hin, hip] at h
    cases h
  | cons e rest =>
    rw [s.turn_cons e rest hin] at h
    exact ⟨e, rest, rfl, { s with inputs := rest }.event_clears_doneIp e hip h⟩

end Sys2Proof.Machine

namespace Sys2Proof.Proofs
open Sys2Proof.Machine

/-- Settles O16: a step that clears DONE_IP is no completion step (`runWord_interrupt`), so it is a turn, and its event
is one of the two (`State.turn_clears_doneIp`). -/
theorem doneIpClearedOnlyByHost : Obligations.DoneIpClearedOnlyByHost := by
  refine ⟨fun s t h hip hclear => ?cleared, fun w s t h => (runWord_interrupt w s t h).2, fun _ => rfl,
    fun s v hrst => ?writes⟩
  case cleared =>
    obtain ⟨-, hstep⟩ | ⟨f, -, -, hstep⟩ | ⟨f, -, -, hstep⟩ := step_cases s <;> rw [hstep] at h
    · cases h
      exact s.turn_clears_doneIp hip hclear
    · obtain ⟨-, hset⟩ := runWord_interrupt f.word s t h
      exact absurd hclear (ne_false_of_eq_true hset)
    · cases h
      exact s.countDown.turn_clears_doneIp hip hclear
  case writes =>
    rw [s.busWrite_of_reg 0x10 .intStatus v hrst rfl, s.busWrite_of_reg 0x0C .intEn v hrst rfl]
    refine ⟨fun hbit => congrArg State.doneIp (s.acknowledge_of_set v hbit), rfl,
      fun hip hbit => (State.irq_iff _).mpr ⟨hbit, hip⟩, fun hbit => Bool.eq_false_iff.mpr fun hirq => ?_⟩
    obtain ⟨hie, -⟩ := (State.irq_iff _).mp hirq
    exact absurd hie (ne_true_of_eq_false hbit)

/-- Settles O15: a completion step keeps DONE_IE and sets DONE_IP. -/
theorem interruptOutput : Obligations.InterruptOutput := by
  refine ⟨State.irq_iff, fun w s t h => ?_⟩
  obtain ⟨hie, hip⟩ := runWord_interrupt w s t h
  rw [State.irq, hip, hie, Bool.and_true]

end Sys2Proof.Proofs
end

section
/-! PROOFS. Errors (60_exceptions.md R230 to R235): the values of ERR_CODE, which command raises which, and what an
error leaves. ENCODE and DECODE end as the EMIT_STREAM or DECODE_PAYLOAD of the state their other steps leave, so what
is said of those two is said of all four emitting commands. -/

namespace Sys2Proof.Machine

/-! ## The values of ERR_CODE (R230) -/

/-- The 19 error codes, in the order of R230's table. -/
def allErrCodes : List ErrCode :=
  [.none, .illegalCommand, .sequence, .addressRange, .overlap, .emptyTable, .inputMismatch, .outputOverflow,
    .corruptTruncated, .corruptSymbolCount, .corruptZeroFrequency, .corruptDuplicateSymbol, .corruptSumMismatch,
    .corruptFinalBits, .corruptPadding, .corruptEndOfStream, .corruptMissingChild, .corruptTrailingBits,
    .corruptHistogram]

theorem mem_allErrCodes (e : ErrCode) : e ∈ allErrCodes := by cases e <;> decide

theorem nodup_code_allErrCodes : (allErrCodes.map ErrCode.code).Nodup := by decide

theorem ErrCode.code_inj {e e' : ErrCode} (h : e.code = e'.code) : e = e' :=
  List.inj_on_of_nodup_map nodup_code_allErrCodes (mem_allErrCodes e) (mem_allErrCodes e') h

/-- Bit 4 marks the codes 0x10 to 0x1A. -/
theorem ErrCode.code_bit_four_iff (e : ErrCode) :
    e.code.getLsbD 4 = true ↔ 0x10 ≤ e.code.toNat ∧ e.code.toNat ≤ 0x1A := by cases e <;> decide

/-! ## Errors before any access (R231, R235) -/

/-- The errors that EMIT_STREAM and DECODE_PAYLOAD find before any access, in check order. -/
def emitterRefusals : List ErrCode := [.sequence, .addressRange, .overlap, .outputOverflow]

/-- Those of them that ENCODE and DECODE can end with: the steps before have set the flags (R230). -/
def windowRefusals : List ErrCode := [.addressRange, .overlap, .outputOverflow]

section Checks
variable {s : State} {e : ErrCode}

theorem State.emitRefusal_mem (h : s.emitRefusal = some e) : e ∈ emitterRefusals := by
  unfold State.emitRefusal at h
  split_ifs at h <;> cases h <;> decide

theorem State.decodeRefusal_mem (h : s.decodeRefusal = some e) : e ∈ emitterRefusals := by
  unfold State.decodeRefusal at h
  split_ifs at h <;> cases h <;> decide

theorem State.emitRefusal_of_not_encodable (h : ¬ (s.codesValid = true ∨ (s.tableValid = true ∧ s.nsym = 0))) :
    s.emitRefusal = some .sequence := by
  rw [← s.emptyTable_iff, ← Bool.or_eq_true, Bool.not_eq_true] at h
  exact if_pos (by rw [h]; rfl)

/-- R210: a header, and a tree if the table has a symbol. -/
theorem State.decodable_iff (s : State) : (!s.hdrValid || (decide (s.nsym ≠ 0) && !s.treeValid)) = true ↔
    ¬ (s.hdrValid = true ∧ (s.nsym = 0 ∨ s.treeValid = true)) := by
  simp only [Bool.or_eq_true, Bool.and_eq_true, Bool.not_eq_true', decide_eq_true_eq, not_and_or, not_or,
    Bool.not_eq_true, ne_eq]

theorem State.decodeRefusal_of_not_decodable (h : ¬ (s.hdrValid = true ∧ (s.nsym = 0 ∨ s.treeValid = true))) :
    s.decodeRefusal = some .sequence := if_pos (s.decodable_iff.mpr h)

/-- With a header and its tree the windows decide, whatever the payload window (R64, log entry 27). -/
theorem State.decodeRefusal_of_ready (h : s.hdrValid = true ∧ (s.nsym = 0 ∨ s.treeValid = true)) :
    s.decodeRefusal =
      if ¬ (s.payAddr.toNat + s.payLen.toNat ≤ 2 ^ 32 ∧ s.dstAddr.toNat + s.dstCap.toNat ≤ 2 ^ 32) then
        some .addressRange
      else if s.payWindow.overlaps s.dstWindow = true then some .overlap
      else if s.dstCap.toNat < s.origLen.toNat then some .outputOverflow
      else none := by
  have hrange : (s.payWindow.inRange && s.dstWindow.inRange) = true ↔
      s.payAddr.toNat + s.payLen.toNat ≤ 2 ^ 32 ∧ s.dstAddr.toNat + s.dstCap.toNat ≤ 2 ^ 32 := by
    rw [Bool.and_eq_true, Window.inRange_iff, Window.inRange_iff]
    rfl
  rw [State.decodeRefusal, if_neg (mt s.decodable_iff.mp (not_not.mpr h))]
  simp only [Bool.not_eq_true', ← hrange, Bool.not_eq_true]

theorem State.emitRefusal_mem_of_encodable (hcodes : s.codesValid = true ∨ (s.tableValid = true ∧ s.nsym = 0))
    (h : s.emitRefusal = some e) : e ∈ windowRefusals := by
  rw [State.emitRefusal_of_encodable hcodes] at h
  split_ifs at h <;> cases h <;> decide

theorem State.decodeRefusal_mem_of_decodable (hready : s.hdrValid = true ∧ (s.nsym = 0 ∨ s.treeValid = true))
    (h : s.decodeRefusal = some e) : e ∈ windowRefusals := by
  rw [State.decodeRefusal_of_ready hready] at h
  split_ifs at h <;> cases h <;> decide

end Checks

/-! ## How EMIT_STREAM and DECODE_PAYLOAD raise -/

section Raise
variable {s t : State} {e : ErrCode}

theorem runEmitStream_raise (h : runEmitStream s = .raise e t) :
    (s.emitRefusal = some e ∧ t = { s with resultLen := 0 }) ∨
      (e = .inputMismatch ∧ t = { s with mem := s.scrambleDst, resultLen := 0 }) := by
  cases hcheck : s.emitRefusal with
  | some e' =>
    cases (runEmitStream_of_refused hcheck).symm.trans h
    exact .inl ⟨rfl, rfl⟩
  | none =>
    by_cases hmatch : histogram s.srcBytes = s.freq
    · cases (runEmitStream_of_match hcheck hmatch).symm.trans h
    · cases (runEmitStream_of_mismatch hcheck hmatch).symm.trans h
      exact .inr ⟨rfl, rfl⟩

theorem runDecodePayload_raise (h : runDecodePayload s = .raise e t) :
    (s.decodeRefusal = some e ∧ t = { s with resultLen := 0 }) ∨
      (e ∈ payloadErrs ∧ t = { s with mem := s.scrambleDst, resultLen := 0 }) := by
  cases hcheck : s.decodeRefusal with
  | some e' =>
    cases (runDecodePayload_of_refused hcheck).symm.trans h
    exact .inl ⟨rfl, rfl⟩
  | none =>
    cases hout : s.decodeOutput with
    | ok out => cases (runDecodePayload_of_output hcheck hout).symm.trans h
    | error e' =>
      cases (runDecodePayload_of_corrupt hcheck hout).symm.trans h
      exact .inr ⟨s.decodeOutput_error _ hout, rfl⟩

end Raise

/-! ## What ENCODE and DECODE end as -/

/-- ENCODE fails in COUNT, or is EMIT_STREAM of what its other steps leave. -/
theorem runEncode_cases (s : State) :
    runEncode s = .raise .addressRange { s with resultLen := 0 } ∨ runEncode s = runEmitStream s.encodeStart := by
  obtain ⟨hin, -⟩ | ⟨-, hcount⟩ := runCount_cases s
  · exact .inr (runEncode_of_inRange hin)
  · exact .inl (by rw [runEncode, hcount]; rfl)

/-- R220: an accepted header sets HDR_VALID, and its tree is built if it has a symbol. -/
theorem State.decodeStart_decodable (s : State) (h : Header) :
    (s.decodeStart h).hdrValid = true ∧ ((s.decodeStart h).nsym = 0 ∨ (s.decodeStart h).treeValid = true) := by
  simp only [State.decodeStart]
  split
  · next hnsym => exact ⟨rfl, .inl hnsym⟩
  · exact ⟨rfl, .inr rfl⟩

/-- DECODE fails in PARSE_HEADER, or is DECODE_PAYLOAD of what its other steps leave. -/
theorem runDecode_cases (s : State) :
    runDecode s = .raise .addressRange { s with resultLen := 0 } ∨
      (∃ e ∈ headerErrs, runDecode s = .raise e { s.corruptHeader with resultLen := 0 }) ∨
      ∃ h, runDecode s = runDecodePayload (s.decodeStart h) := by
  obtain ⟨-, hparse⟩ | ⟨-, e, he, hparse⟩ | ⟨-, h, -, hparse⟩ := runParseHeader_cases s
  · exact .inl (by rw [runDecode, hparse]; rfl)
  · exact .inr (.inl ⟨e, parseHeader_error _ _ _ e he, by rw [runDecode, hparse]; rfl⟩)
  · refine .inr (.inr ⟨h, ?_⟩)
    rw [runDecode, hparse, Run.andThen_ok, runBuildIfAny_loadHeader, Run.andThen_ok]
    exact Run.zeroLength_zeroLength _

/-! ## Which command raises which error (R230) -/

theorem footprintOf_errs (i : Instr) : (footprintOf i).errs = errsOf i := by cases i <;> rfl

section Listed
variable {s t : State} {e : ErrCode}

theorem runEncode_raise_mem (h : runEncode s = .raise e t) : e ∈ errsOf .encode := by
  have hwindows : ∀ e ∈ windowRefusals, e ∈ errsOf .encode := by decide
  obtain hrun | hrun := runEncode_cases s <;> rw [hrun] at h
  · cases h
    decide
  · obtain ⟨hcheck, -⟩ | ⟨rfl, -⟩ := runEmitStream_raise h
    · exact hwindows e (State.emitRefusal_mem_of_encodable s.encodeStart_encodable hcheck)
    · decide

theorem runDecode_raise_mem (h : runDecode s = .raise e t) : e ∈ errsOf .decode := by
  have hheader : ∀ e ∈ headerErrs, e ∈ errsOf .decode := by decide
  have hwindows : ∀ e ∈ windowRefusals, e ∈ errsOf .decode := by decide
  have hpayload : ∀ e ∈ payloadErrs, e ∈ errsOf .decode := by decide
  obtain hrun | ⟨e', he, hrun⟩ | ⟨hd, hrun⟩ := runDecode_cases s <;> rw [hrun] at h
  · cases h
    decide
  · cases h
    exact hheader _ he
  · obtain ⟨hcheck, -⟩ | ⟨he, -⟩ := runDecodePayload_raise h
    · exact hwindows e (State.decodeRefusal_mem_of_decodable (s.decodeStart_decodable hd) hcheck)
    · exact hpayload e he

theorem runOf_raise_mem {i : Instr} (h : runOf i s = .raise e t) : e ∈ errsOf i := by
  cases i with
  | clear => cases h
  | count => obtain ⟨-, hrun⟩ | ⟨-, hrun⟩ := runCount_cases s <;> cases hrun.symm.trans h; decide
  | buildTree =>
    obtain ⟨-, hrun⟩ | ⟨-, -, hrun⟩ | ⟨-, -, hrun⟩ := runBuildTree_cases s <;> cases hrun.symm.trans h <;> decide
  | assignCodes => obtain ⟨-, hrun⟩ | ⟨-, hrun⟩ := runAssignCodes_cases s <;> cases hrun.symm.trans h; decide
  | emitStream =>
    have hrefusals : ∀ e ∈ emitterRefusals, e ∈ errsOf .emitStream := by decide
    obtain ⟨hcheck, -⟩ | ⟨rfl, -⟩ := runEmitStream_raise h
    · exact hrefusals e (State.emitRefusal_mem hcheck)
    · decide
  | parseHeader =>
    obtain ⟨-, hrun⟩ | ⟨-, e', he, hrun⟩ | ⟨-, hd, -, hrun⟩ := runParseHeader_cases s <;> cases hrun.symm.trans h
    · decide
    · exact List.mem_cons_of_mem _ (parseHeader_error _ _ _ _ he)
  | decodePayload =>
    obtain ⟨hcheck, -⟩ | ⟨he, -⟩ := runDecodePayload_raise h
    · exact List.mem_append_left payloadErrs (State.decodeRefusal_mem hcheck)
    · exact List.mem_append_right emitterRefusals he
  | encode => exact runEncode_raise_mem h
  | decode => exact runDecode_raise_mem h

end Listed

/-! ## What an error of an emitting command leaves (R233) -/

/-- A raise of r clears RESULT_LEN, and where it comes before any access memory is that of s. -/
def FailsWithoutOutput (s : State) (r : Run) : Prop :=
  ∀ e t, r = .raise e t → t.resultLen = 0 ∧ (e ∈ emitterRefusals → t.mem = s.mem)

theorem runEmitStream_failsWithoutOutput (s : State) : FailsWithoutOutput s (runEmitStream s) := by
  intro e t h
  obtain ⟨-, rfl⟩ | ⟨rfl, rfl⟩ := runEmitStream_raise h
  · exact ⟨rfl, fun _ => rfl⟩
  · exact ⟨rfl, fun he => absurd he (by decide)⟩

theorem runDecodePayload_failsWithoutOutput (s : State) : FailsWithoutOutput s (runDecodePayload s) := by
  have hapart : ∀ e ∈ payloadErrs, e ∉ emitterRefusals := by decide
  intro e t h
  obtain ⟨-, rfl⟩ | ⟨he, rfl⟩ := runDecodePayload_raise h
  · exact ⟨rfl, fun _ => rfl⟩
  · exact ⟨rfl, fun hearly => absurd hearly (hapart e he)⟩

theorem FailsWithoutOutput.of_mem_eq {s p : State} {r : Run} (h : FailsWithoutOutput p r) (hmem : p.mem = s.mem) :
    FailsWithoutOutput s r := by
  unfold FailsWithoutOutput at h
  rwa [hmem] at h

theorem runEncode_failsWithoutOutput (s : State) : FailsWithoutOutput s (runEncode s) := by
  obtain hrun | hrun := runEncode_cases s <;> rw [hrun]
  · rintro _ _ ⟨⟩
    exact ⟨rfl, fun _ => rfl⟩
  · exact (runEmitStream_failsWithoutOutput _).of_mem_eq s.encodeStart_mem

theorem runDecode_failsWithoutOutput (s : State) : FailsWithoutOutput s (runDecode s) := by
  have hapart : ∀ e ∈ headerErrs, e ∉ emitterRefusals := by decide
  obtain hrun | ⟨e, he, hrun⟩ | ⟨h, hrun⟩ := runDecode_cases s <;> rw [hrun]
  · rintro _ _ ⟨⟩
    exact ⟨rfl, fun _ => rfl⟩
  · rintro _ _ ⟨⟩
    exact ⟨rfl, fun hearly => absurd hearly (hapart e he)⟩
  · exact (runDecodePayload_failsWithoutOutput _).of_mem_eq (s.decodeStart_mem h)

theorem runOf_failsWithoutOutput (i : Instr) (s : State) (h : emits i = true) : FailsWithoutOutput s (runOf i s) := by
  cases i with
  | clear | count | buildTree | assignCodes | parseHeader => cases h
  | emitStream => exact runEmitStream_failsWithoutOutput s
  | decodePayload => exact runDecodePayload_failsWithoutOutput s
  | encode => exact runEncode_failsWithoutOutput s
  | decode => exact runDecode_failsWithoutOutput s

/-! ## The completion step of an error (R232) -/

section Exec
variable {s : State} {e : ErrCode} (hraced : s.raced = false)
include hraced

theorem exec_of_raise {i : Instr} {t : State} (h : runOf i s = .raise e t) : exec i s = .next (t.takeError e) := by
  rw [exec_unraced i s hraced, h, Run.complete_raise]

theorem exec_emitStream_of_refused (h : s.emitRefusal = some e) :
    exec .emitStream s = .next ({ s with resultLen := 0 }.takeError e) :=
  exec_of_raise hraced (runEmitStream_of_refused h)

theorem exec_decodePayload_of_refused (h : s.decodeRefusal = some e) :
    exec .decodePayload s = .next ({ s with resultLen := 0 }.takeError e) :=
  exec_of_raise hraced (runDecodePayload_of_refused h)

end Exec
end Sys2Proof.Machine

namespace Sys2Proof.Proofs
open Sys2Proof.Machine

/-- Settles O22: a raced command draws its code from its own list, an unraced one raises only what
`runOf_raise_mem` says. -/
theorem errorCodesPerCommand : Obligations.ErrorCodesPerCommand := by
  intro i s t h
  cases hraced : s.raced with
  | true =>
    cases (exec_raced i s hraced).symm.trans h
    rw [← footprintOf_errs]
    exact freeErr_mem _ s.draws
  | false =>
    cases (exec_unraced i s hraced).symm.trans h
    cases hrun : runOf i s with
    | ok u => exact .inl rfl
    | raise e u => exact .inr (runOf_raise_mem hrun)

/-- Settles O23: the bytes outside the destination window are O24's, the rest is `runOf_failsWithoutOutput`. -/
theorem outputAfterError : Obligations.OutputAfterError := by
  intro i s t hraced hemits h herr
  obtain ⟨houtside, -⟩ := writesOnlyDestinationWindow i s t h
  cases hrun : runOf i s with
  | ok u =>
    rw [exec_unraced i s hraced, hrun] at h
    cases h
    exact absurd rfl herr
  | raise e u =>
    cases (exec_of_raise hraced hrun).symm.trans h
    obtain ⟨hlen, hmem⟩ := runOf_failsWithoutOutput i s hemits e u hrun
    exact ⟨hlen, houtside, fun he a => congrArg (Memory.read · a) (hmem he)⟩

/-- Settles O30: the checks before any access, evaluated in order. -/
theorem earlyErrorsOfEmitters : Obligations.EarlyErrorsOfEmitters := by
  intro s hraced failed encodable inRange decodable payInRange
  have emit {e : ErrCode} (h : s.emitRefusal = some e) := exec_emitStream_of_refused hraced h
  have decode {e : ErrCode} (h : s.decodeRefusal = some e) := exec_decodePayload_of_refused hraced h
  refine ⟨fun hno => emit (State.emitRefusal_of_not_encodable hno),
    fun hcodes hrange => emit ?emitRange, fun hcodes hrange hover => emit ?emitOverlap,
    fun hcodes hrange hapart hshort => emit ?emitOverflow,
    fun hno => decode (State.decodeRefusal_of_not_decodable hno),
    fun hready hrange => decode ?decodeRange, fun hready hrange hover => decode ?decodeOverlap,
    fun hready hrange hapart hshort => decode ?decodeOverflow⟩
  case emitRange => rw [State.emitRefusal_of_encodable hcodes, if_pos hrange]
  case emitOverlap => rw [State.emitRefusal_of_encodable hcodes, if_neg (not_not.mpr hrange), if_pos hover]
  case emitOverflow =>
    rw [State.emitRefusal_of_encodable hcodes, if_neg (not_not.mpr hrange), if_neg (ne_true_of_eq_false hapart),
      if_pos hshort]
  case decodeRange => rw [State.decodeRefusal_of_ready hready, if_pos hrange]
  case decodeOverlap => rw [State.decodeRefusal_of_ready hready, if_neg (not_not.mpr hrange), if_pos hover]
  case decodeOverflow =>
    rw [State.decodeRefusal_of_ready hready, if_neg (not_not.mpr hrange), if_neg (ne_true_of_eq_false hapart),
      if_pos hshort]

/-- Settles O21: distinctness is that of the 19 values in R230's table. -/
theorem errorCodeValues : Obligations.ErrorCodeValues :=
  ⟨ErrCode.code_bit_four_iff, fun _ _ => ErrCode.code_inj, rfl, rfl, rfl, rfl, rfl, rfl, rfl, rfl, rfl, rfl, rfl, rfl,
    rfl, rfl, rfl, rfl, rfl, rfl, rfl⟩

/-- Settles O29: each run raises at the check that applies, with the state as it was. -/
theorem earlyErrorsChangeOnlyStatus : Obligations.EarlyErrorsChangeOnlyStatus := by
  intro s hraced failed
  have past (h : 2 ^ 32 < s.srcAddr.toNat + s.srcLen.toNat) : s.srcWindow.inRange = false :=
    Bool.eq_false_iff.mpr fun hin => absurd ((Window.inRange_iff _).mp hin) (not_le.mpr h)
  have fails {i : Instr} {e : ErrCode} (h : runOf i s = .raise e s) := exec_of_raise hraced h
  refine ⟨fun hpast => fails (if_neg (ne_true_of_eq_false (past hpast))), fun hpast => fails (if_pos ?range),
    fun htable => fails (if_pos htable),
    fun htable hnsym => fails ((if_neg (ne_false_of_eq_true htable)).trans (if_pos hnsym)),
    fun htree => fails (if_pos htree)⟩
  case range => rw [past hpast]; rfl

end Sys2Proof.Proofs
end

section
/-! PROOFS. A command in flight completes unless reset comes first (70_reset_and_hazards.md R269): every other event
leaves its wait and LAST_OP as they are, so each turn brings the completion step one nearer. -/

namespace Sys2Proof.Machine

theorem run_succ_of_next (k : Nat) (s t : State) (h : step s = .next t) :
    Host.Core.run Sys2Proof.core (k + 1) s = Host.Core.run Sys2Proof.core k t := by
  have hcore : Sys2Proof.core.step s = .next t := h
  simp only [Host.Core.run, hcore]

/-! ## The completion step -/

/-- R115 of any command, raced or not. -/
theorem exec_status (i : Instr) (s t : State) (h : exec i s = .next t) :
    t.busy = false ∧ t.done = true ∧ t.doneIp = true ∧ t.lastOp = s.lastOp := by
  obtain ⟨-, -, -, -, -, -, -, hop, -⟩ := exec_sameHostSide i s t h
  cases hraced : s.raced with
  | false =>
    cases (exec_unraced i s hraced).symm.trans h
    obtain ⟨hidle, hdone, hip⟩ := (runOf i s).complete_status
    exact ⟨congrArg Option.isSome hidle, hdone, hip, hop⟩
  | true =>
    cases (exec_raced i s hraced).symm.trans h
    exact ⟨rfl, rfl, rfl, hop⟩

/-- R115 of any command word, legal or not. -/
theorem runWord_completes (w : Word) (s : State) :
    ∃ t, runWord w s = .next t ∧ t.busy = false ∧ t.done = true ∧ t.doneIp = true ∧ t.lastOp = s.lastOp := by
  obtain ⟨i, -, hrun⟩ | ⟨e, -, hrun⟩ := runWord_cases w s <;> rw [hrun]
  · obtain ⟨t, ht⟩ := exec_answers_next i s
    exact ⟨t, ht, exec_status i s t ht⟩
  · exact ⟨_, rfl, rfl, rfl, rfl, rfl⟩

/-! ## Turns while a command waits -/

/-- t is as near to the completion step of the same command as s, with the same events to come. -/
def SameWait (s t : State) : Prop :=
  t.inflight.map InFlight.wait = s.inflight.map InFlight.wait ∧ t.lastOp = s.lastOp ∧ t.inputs = s.inputs

theorem SameWait.refl (s : State) : SameWait s s := ⟨rfl, rfl, rfl⟩

/-- R111: while BUSY = 1 no register write accepts a command. -/
theorem State.writeReg_sameWait (s : State) (r : Reg) (v : Word) (hbusy : s.inflight ≠ none) :
    SameWait s (s.writeReg r v) := by
  obtain h | h | h | h | ⟨hidle, -⟩ := s.writeReg_cases r v
  case inr.inr.inr.inr => exact absurd hidle hbusy
  all_goals
    rw [h]
    exact .refl s

theorem State.busWrite_sameWait (s : State) (off : Byte) (v : Word) (hbusy : s.inflight ≠ none) :
    SameWait s (s.busWrite off v) := by
  unfold State.busWrite
  split
  · exact .refl s
  · split
    · exact .refl s
    · exact s.writeReg_sameWait _ v hbusy

/-- A race marks the command, and does not end it. -/
theorem State.outsideWrite_sameWait (s : State) (a : Word) (b : Byte) : SameWait s (s.outsideWrite a b) := by
  rw [State.outsideWrite_eq]
  refine ⟨?_, rfl, rfl⟩
  dsimp only
  split
  · rw [Option.map_map]
    rfl
  · rfl

theorem State.event_sameWait (s : State) (e : HostEvent) (hbusy : s.inflight ≠ none) (he : e ≠ .rstAssert) :
    SameWait s (s.event e) := by
  cases e with
  | write off v => exact s.busWrite_sameWait off v hbusy
  | memWrite a b => exact s.outsideWrite_sameWait a b
  | rstAssert => exact absurd rfl he
  | read off => exact .refl s
  | memRead a => exact .refl s
  | rstRelease => exact .refl s

/-- A turn takes the first of the events to come, if there is one. -/
theorem State.turn_keeps_wait (s : State) (hbusy : s.inflight ≠ none) (he : ∀ e ∈ s.inputs.head?, e ≠ .rstAssert) :
    s.turn.inflight.map InFlight.wait = s.inflight.map InFlight.wait ∧ s.turn.lastOp = s.lastOp ∧
      s.turn.inputs = s.inputs.tail := by
  cases hin : s.inputs with
  | nil =>
    rw [s.turn_nil hin]
    exact ⟨rfl, rfl, hin⟩
  | cons e rest =>
    rw [s.turn_cons e rest hin]
    exact State.event_sameWait { s with inputs := rest } e hbusy (he e (by rw [hin]; rfl))

theorem step_counts_down (s : State) (f : InFlight) (n : Nat) (hf : s.inflight = some f) (hw : f.wait = n + 1)
    (he : ∀ e ∈ s.inputs.head?, e ≠ .rstAssert) :
    ∃ t g, step s = .next t ∧ t.inflight = some g ∧ g.wait = n ∧ t.lastOp = s.lastOp ∧
      t.inputs = s.inputs.tail := by
  have hcount : s.countDown.inflight = some { f with wait := f.wait - 1 } := congrArg (Option.map _) hf
  obtain ⟨hwait, hop, hinputs⟩ := s.countDown.turn_keeps_wait (hcount ▸ Option.some_ne_none _) he
  rw [hcount, Option.map_some, hw, Nat.add_sub_cancel] at hwait
  obtain ⟨g, hg, hgw⟩ := Option.map_eq_some_iff.mp hwait
  exact ⟨_, g, step_of_waiting s f hf (hw ▸ n.succ_ne_zero), hg, hgw, hop, hinputs⟩

/-- R269, by induction on the wait. -/
theorem run_completes (n : Nat) (s : State) (f : InFlight) (hf : s.inflight = some f) (hw : f.wait = n)
    (hin : ∀ e ∈ s.inputs.take n, e ≠ .rstAssert) :
    ∃ t, Host.Core.run Sys2Proof.core (n + 1) s = .next t ∧
      t.busy = false ∧ t.done = true ∧ t.doneIp = true ∧ t.lastOp = s.lastOp := by
  induction n generalizing s f with
  | zero =>
    obtain ⟨t, ht, hdone⟩ := runWord_completes f.word s
    exact ⟨t, run_succ_of_next 0 s t ((step_of_due s f hf hw).trans ht), hdone⟩
  | succ n ih =>
    have hfirst : ∀ e ∈ s.inputs.head?, e ≠ .rstAssert := fun e he =>
      hin e (List.mem_of_mem_head? (by rwa [List.head?_take, if_neg n.succ_ne_zero]))
    obtain ⟨u, g, hstep, hg, hgw, hop, hinputs⟩ := step_counts_down s f n hf hw hfirst
    have hlater : ∀ e ∈ u.inputs.take n, e ≠ .rstAssert := fun e he =>
      hin e (List.mem_of_mem_tail (by rwa [List.tail_take_eq_take_tail, Nat.add_sub_cancel, ← hinputs]))
    rw [run_succ_of_next _ s u hstep, ← hop]
    exact ih u g hg hgw hlater

end Sys2Proof.Machine

namespace Sys2Proof.Proofs
open Sys2Proof.Machine

/-- Settles O7: the wait counts down to the completion step (`run_completes`). -/
theorem acceptedCommandCompletes : Obligations.AcceptedCommandCompletes :=
  fun s f hf hin => run_completes f.wait s f hf rfl hin

end Sys2Proof.Proofs
end

section
/-! PROOFS. Reset (70_reset_and_hazards.md R260 to R262): its values, the invariants they meet, and the bytes it
leaves alone, which are those outside the only window a command writes. -/

namespace Sys2Proof.Machine

/-- R65: the destination window is the only one a command writes. -/
theorem writeWindows_eq (i : Instr) (s : State) : writeWindows i s = if emits i then [s.dstWindow] else [] := by
  cases i <;> rfl

section Running
variable {s : State} {i : Instr} (h : s.running = some i)
include h

theorem State.inWriteWindow_of_running (a : Nat) :
    s.inWriteWindow a = (writeWindows i s).any fun w => w.contains a := by
  rw [State.inWriteWindow, h]

theorem State.inWindow_of_running (a : Nat) :
    s.inWindow a = (readWindows i s ++ writeWindows i s).any fun w => w.contains a := by
  rw [State.inWindow, h]

/-- Only a command in flight runs. -/
theorem State.inflight_of_running : ∃ f, s.inflight = some f := by
  unfold State.running at h
  split at h
  · cases h
  · next f hf => exact ⟨f, hf⟩

end Running

theorem State.read_abortMem_outside (s : State) (a : Nat) (h : s.inWriteWindow a = false) :
    s.abortMem.read a = s.mem.read a := by
  cases hrun : s.running with
  | none => rw [State.abortMem, hrun]
  | some i =>
    rw [s.inWriteWindow_of_running hrun, writeWindows_eq] at h
    simp only [State.abortMem, hrun, writeWindows_eq]
    cases hemits : emits i with
    | false => rfl
    | true =>
      rw [hemits] at h
      exact s.read_scrambleDst_outside a (by simpa using h)

/-- The tables and memory are no part of STATUS, so this is the word of `State.reset`. -/
theorem State.resetWith_statusWord (m : Memory) (f : Vector Word 256) (l : Vector Byte 256)
    (c : Vector CodeWord 256) : (State.resetWith m f l c).statusWord = 0 := by
  change State.reset.statusWord = 0
  decide

theorem State.resetWith_shapeOk (m : Memory) (f : Vector Word 256) (l : Vector Byte 256) (c : Vector CodeWord 256)
    (hwf : m.wf = true) : (State.resetWith m f l c).shapeOk = true :=
  (State.shapeOk_iff _).mpr ⟨hwf, Nat.zero_le 511, fun _ => rfl⟩

theorem State.resetWith_truthful (m : Memory) (f : Vector Word 256) (l : Vector Byte 256)
    (c : Vector CodeWord 256) : (State.resetWith m f l c).FlagsTruthful :=
  State.TableTruthful.flagsTruthful (fun h => absurd h Bool.false_ne_true) rfl rfl rfl

end Sys2Proof.Machine

namespace Sys2Proof.Proofs
open Sys2Proof.Machine

/-- Settles O18: the registers are those of `State.resetWith`, the bytes are `State.read_abortMem_outside`. -/
theorem resetAbortsCommand : Obligations.ResetAbortsCommand :=
  fun s => ⟨rfl, rfl, ⟨_, _, _, _, rfl⟩, s.read_abortMem_outside⟩

/-- Settles O17: each offset read is a register of the idle machine, and each register is R260's by definition. -/
theorem resetValues : Obligations.ResetValues := by
  intro m f l c s
  have read (off : Byte) (r : Reg) (hreg : regAt off = some r) := s.busRead_of_idle off r rfl hreg
  rw [read 0x00 .id rfl, read 0x0C .intEn rfl, read 0x10 .intStatus rfl, read 0x80 .nodeInfo rfl,
    read 0x84 .nodeLink rfl, read 0x88 .nodeWLo rfl, read 0x8C .nodeWHi rfl]
  exact ⟨rfl, State.resetWith_statusWord m f l c, rfl, rfl, rfl, rfl, rfl, rfl, rfl, rfl, rfl, rfl, rfl, rfl, rfl, rfl,
    rfl, rfl, rfl, rfl, rfl, rfl, rfl, rfl, rfl, rfl, rfl, rfl, rfl⟩

/-- Settles O19: the bus looks at `rst` before the offset. -/
theorem resetHeldIgnoresWrites : Obligations.ResetHeldIgnoresWrites := fun _ _ _ hrst => if_pos hrst

/-- Settles O57: no node, no command in flight, and flags that promise nothing. -/
theorem resetMeetsInvariants : Obligations.ResetMeetsInvariants :=
  ⟨fun m f l c hwf => ⟨State.resetWith_shapeOk m f l c hwf, State.resetWith_truthful m f l c⟩,
    State.resetWith_shapeOk _ _ _ _ rfl, State.resetWith_truthful _ _ _ _⟩

end Sys2Proof.Proofs
end

section
/-! PROOFS. The memory race (70_reset_and_hazards.md R265): which accesses from outside it takes, and what the raced
command's completion step leaves alone. -/

namespace Sys2Proof.Machine

theorem State.raced_outsideWrite (s : State) (f : InFlight) (a : Word) (b : Byte) (hf : s.inflight = some f) :
    (s.outsideWrite a b).raced = (s.raced || s.inWindow a.toNat) := by
  rw [State.outsideWrite_eq]
  cases hin : s.inWindow a.toNat <;> simp [State.raced, hf]

theorem State.mem_outsideWrite (s : State) (a : Word) (b : Byte) :
    (s.outsideWrite a b).mem = s.mem.write a.toNat b := by
  rw [State.outsideWrite_eq]

theorem raceComplete_errCode (i : Instr) (s : State) :
    (raceComplete (footprintOf i) s).errCode = .none ∨ (raceComplete (footprintOf i) s).errCode ∈ errsOf i := by
  rw [← footprintOf_errs]
  exact freeErr_mem _ s.draws

end Sys2Proof.Machine

namespace Sys2Proof.Proofs
open Sys2Proof.Machine

/-- Settles O58: a command's footprint is a constant, so each field outside it is that of s by definition. -/
theorem racedCommandCompletes : Obligations.RacedCommandCompletes := by
  intro i s hraced
  refine ⟨raceComplete (footprintOf i) s, exec_raced i s hraced, raceComplete_errCode i s,
    fun a => read_raceComplete_outside _ s a, ?clear, ?count, ?buildTree, ?assignCodes, ?emitStream, ?parseHeader,
    ?decodePayload, ?encode, ?decode⟩
  case clear | count | buildTree | assignCodes | emitStream | parseHeader | decodePayload | encode | decode =>
    rintro rfl
    rfl

/-- Settles O59: the running command's windows are those `inWindow` and `inWriteWindow` look at. -/
theorem outsideAccessesRace : Obligations.OutsideAccessesRace := by
  refine ⟨fun s i a b hrun => ?marks, fun s a b hwf => ?readsBack, fun s i a hrun hin => ?free,
    fun s a hout => if_neg (ne_true_of_eq_false hout)⟩
  case marks =>
    obtain ⟨f, hf⟩ := State.inflight_of_running hrun
    rw [s.raced_outsideWrite f a b hf, s.inWindow_of_running hrun]
  case readsBack =>
    rw [s.mem_outsideWrite]
    exact s.mem.read_write_same a.toNat b hwf a.isLt
  case free => exact if_pos ((s.inWriteWindow_of_running hrun a.toNat).trans hin)

end Sys2Proof.Proofs
end
